-- ==== Sys2Proof/Word.lean ====
section
/-! DEFINITION. The word types (R8: a word is 64 bits and little-endian) and the plainest arithmetic on
them: bit fields (R7: `[high:low]`, inclusive, bit 0 least significant), little-endian bytes, ceilings. -/

namespace Sys2Proof

/-- A word of the host port and of the record formats (R8). -/
abbrev Word := BitVec 64
/-- One byte. -/
abbrev Byte := BitVec 8
/-- A g register, a lane of 32 bits (R48). -/
abbrev W32 := BitVec 32

/-- Bits `[hi:lo]` of a number (R7). -/
def bitsOf (x hi lo : Nat) : Nat := (x >>> lo) % 2 ^ (hi + 1 - lo)

/-- Field `[hi:lo]` of a word, as a number (R7). -/
def Word.fld (w : Word) (hi lo : Nat) : Nat := bitsOf w.toNat hi lo

/-- Bit `i` of a number. -/
def bitOf (x i : Nat) : Bool := (x >>> i) % 2 == 1

/-- A word put together from (value, lowest bit) pairs whose ranges do not overlap. -/
def mkWord (fs : List (Nat × Nat)) : Word :=
  BitVec.ofNat 64 (fs.foldl (fun a f => a + f.1 * 2 ^ f.2) 0)

/-- 1 for true, 0 for false. -/
def b2n (b : Bool) : Nat := if b then 1 else 0

/-- ⌈a / b⌉. -/
def cdiv (a b : Nat) : Nat := (a + b - 1) / b

/-- `a` rounded up to a multiple of `b`. -/
def roundUp (a b : Nat) : Nat := cdiv a b * b

/-- The `n` little-endian bytes of a number (R8). -/
def leBytes : Nat → Nat → List Byte
  | 0, _ => []
  | n + 1, x => BitVec.ofNat 8 x :: leBytes n (x / 256)

/-- The number whose little-endian bytes these are (R8). -/
def ofLe : List Byte → Nat
  | [] => 0
  | b :: bs => b.toNat + 256 * ofLe bs

/-- The number whose big-endian bytes these are. -/
def ofBe (bs : List Byte) : Nat := ofLe bs.reverse

/-- The 8 bytes of a word, lowest first. -/
def Word.bytes (w : Word) : List Byte := leBytes 8 w.toNat

/-- Words to bytes. -/
def wordsBytes (ws : List Word) : List Byte := ws.flatMap Word.bytes

/-- Bytes to words, eight at a time, `n` words; bytes that are missing are zero. -/
def bytesWords : Nat → List Byte → List Word
  | 0, _ => []
  | n + 1, bs => BitVec.ofNat 64 (ofLe (bs.take 8)) :: bytesWords n (bs.drop 8)

/-- Word `i` of a list, or 0 beyond it. -/
def wordAt (ws : List Word) (i : Nat) : Word := ws.getD i 0

/-- The signed value of the low `n` bits. -/
def signedOf (n x : Nat) : Int :=
  let y := x % 2 ^ n
  if n ≠ 0 ∧ 2 ^ (n - 1) ≤ y then (y : Int) - (2 ^ n : Nat) else y

/-- The list `[a, a+1, …, a+n-1]`. -/
def rangeFrom (a n : Nat) : List Nat := (List.range n).map (· + a)

/-- A signed number limited to `lo … hi`. -/
def clampInt (lo hi x : Int) : Int := if x < lo then lo else if hi < x then hi else x

end Sys2Proof
end

