-- ==== Sys2Proof/Syntax.lean ====
section
/-! DEFINITION. The commands: one constructor per row of spec/opcode_table.json. A core's instruction carries the
core that executes it, its guard (R53) and the fields of its class (R55), reserved fields included, since a
non-zero reserved field raises ILLEGAL_INSTR. A host command carries nothing: its words are the packet that the
port has passed to interpretation. An event carries what only its source knows. -/

namespace Sys2Proof

/-- A logical core, 0–63 (R1). -/
abbrev CoreId := BitVec 6
/-- A partition, 0–15 (R238). -/
abbrev PartId := BitVec 4
/-- A half: false is half 0 (east), true is half 1 (west) (R1); also a bus, a scan unit or a bridge side. -/
abbrev Half := Bool
/-- A flash channel FL0–FL3 (R293). -/
abbrev FlashCh := BitVec 2
/-- A CSI-2 port (R323). -/
abbrev CsiPort := BitVec 3
/-- A self-timed domain, 0–34 in the order of R13 (R257). -/
abbrev Dom := Fin 35
/-- A rail: 0 VDD_E, 1 VDD_W, 2 VDD_HUB (R376). -/
abbrev Rail := Fin 3
/-- A memory subchannel SC0–SC11. -/
abbrev Subch := Fin 12
/-- A rank set CS0–CS2 (R269). -/
abbrev RankSet := Fin 3

/-- The dies, in the order hub, half 0, half 1 (R430). -/
inductive Die where | hub | half0 | half1
  deriving DecidableEq, Repr

/-- The full rates of R271. -/
inductive FullRate where | r6400 | r5600 | r4800
  deriving DecidableEq, Repr

/-- The components that the memory may be built of (R268). -/
inductive DramParts where | x8g8 | x8g16 | x4g8
  deriving DecidableEq, Repr

/-- The components as training finds them through their mode registers (R273): their size (R268); whether they offer
command/address parity (R291) and directed refresh management (R283); and what JESD79-5 sets for them: ns between the refreshes
that a bank index owes, refreshes that may be postponed (R281), activations after which a bank needs refresh management (R283),
ns of the alert window (R291). -/
structure DramKit where
  parts : DramParts
  parity : Bool
  directed : Bool
  interval : Nat
  postponed : Nat
  activations : Nat
  alertNs : Nat
  deriving DecidableEq, Repr

/-- What the mount reads of flash (R294, R305): the targets that fail READ ID or their parameter page, and the pages of the journal
rings, by channel and number, that read uncorrectable. -/
structure MountRead where
  rejected : List (FlashCh × BitVec 3)
  badRing : List (FlashCh × Nat)
  deriving DecidableEq, Repr

/-- The full rates at which a populated rank set passes training on every subchannel of its half (R273). -/
structure RankResult where
  half : Half
  cs : RankSet
  rates : List FullRate
  deriving DecidableEq, Repr

/-- The arbiter sites of R39, in its order. -/
inductive Site where | meshRouter | halfSpine | mereSlice | memPort | flashChannel | bridge | hubEvent
  deriving DecidableEq, Repr

/-- What the checks of a long packet find (R323): good, its CRC fails, or its header is uncorrectable. -/
inductive LineCheck where | good | badCrc | badHeader
  deriving DecidableEq, Repr

/-- A buffer that overflows as a line comes: the port's input buffer (R330) or a pipe's output staging (R339). -/
inductive Overflow where
  | none
  | input
  | staging (pipe : BitVec 2)
  deriving DecidableEq, Repr

/-- The fabric units that hold an epoch (R412). -/
inductive FabricUnit where | dispatch0 | dispatch1 | partitionControl | streamCommit | sequenceCommit | replyQueue | admission
  deriving DecidableEq, Repr

/-- The SRAM arrays of R404, numbered as DETAIL_A of SRAM_ROW numbers them (R393). -/
inductive SramArray where | pool | accumulator | mere | hub
  deriving DecidableEq, Repr

/-- How a burst comes from DRAM (R286): for each codeword the nibbles of its 80 stored bits that are in error, and the bits in
which the folded address and index of the location read differ from those addressed. -/
structure Ecc where
  flips : List (List (Fin 20))
  moved : BitVec 35
  deriving DecidableEq, Repr

/-- A replica monitor of a self-timed domain (R16). -/
structure MonitorId where
  dom : Dom
  mon : Nat
  deriving DecidableEq, Repr

/-- A register without behaviour of its own that a host writes: a BAR0 offset (R194), or one of the two bits of the
standard's configuration space that R191 and R216 name: Bus Master Enable and the MSI-X function mask. -/
inductive HostReg where
  | bar0 (off : BitVec 16)
  | busMaster
  | msixFunctionMask
  deriving DecidableEq, Repr

/-- What a physical page holds: Ubtur's mapping decides it (R275), so the event names it. -/
inductive PageUse where
  | free | reserve
  | alloc (page : BitVec 22)
  deriving DecidableEq, Repr

/-- The state of a write TLP (R191, R204). `partialWord k`: word `k` of the TLP has a byte disabled. -/
inductive TlpFault where | good | poisoned | ecrc | partialWord (k : Nat)
  deriving DecidableEq, Repr

/-- A physical slot that fails its slot test (R395, R403): the bundle, the slot in it (0–4), the failing test step,
and whether a line of its pool reads as uncorrectable (R46). -/
structure SlotFail where
  bundle : BitVec 4
  slot : Fin 5
  step : Nat
  poolBad : Bool
  deriving DecidableEq, Repr

/-- The guard of R53: the predicate, and whether a false guard executes. -/
structure Guard where
  pred : BitVec 3
  neg : Bool
  deriving DecidableEq, Repr

/-- Class 0x0 (R55). -/
structure RegOps where
  dst : BitVec 5
  a : BitVec 5
  b : BitVec 5
  rsv : BitVec 4
  deriving DecidableEq, Repr

/-- Class 0x1 (R55). -/
structure ImmOps where
  dst : BitVec 5
  a : BitVec 5
  imm : BitVec 11
  deriving DecidableEq, Repr

/-- Class 0x2 (R55); bit 18 is the mnemonic. -/
structure WideOps where
  dst : BitVec 5
  rsv : BitVec 2
  imm : BitVec 16
  deriving DecidableEq, Repr

/-- Class 0x3, KIND 10 (R55). -/
structure JrOps where
  g : BitVec 5
  rsv : BitVec 17
  deriving DecidableEq, Repr

/-- Class 0x3, KIND 11 (R55). -/
structure LoopOps where
  g : BitVec 5
  off : BitVec 17
  deriving DecidableEq, Repr

/-- Class 0x4 with SIZE 00, 01 or 10, where WD is reserved (R55). -/
structure PoolOps where
  reg : BitVec 5
  desc : BitVec 4
  gi : BitVec 5
  gj : BitVec 5
  post : Bool
  wd : Bool
  deriving DecidableEq, Repr

/-- Class 0x4 with SIZE 11; WD is the mnemonic (R55). -/
structure WidePoolOps where
  reg : BitVec 5
  desc : BitVec 4
  gi : BitVec 5
  gj : BitVec 5
  post : Bool
  deriving DecidableEq, Repr

/-- Class 0x5 (R55). -/
structure VecOps where
  vd : BitVec 5
  va : BitVec 5
  vb : BitVec 5
  lfmt : BitVec 3
  deriving DecidableEq, Repr

/-- Class 0x6 (R55). -/
structure MatOps where
  dpair : BitVec 4
  g : BitVec 5
  rsv : BitVec 11
  deriving DecidableEq, Repr

/-- Class 0x7, SEND (R55). -/
structure SendOps where
  dest : BitVec 5
  src : BitVec 4
  len : BitVec 5
  delta : BitVec 5
  rsv : BitVec 3
  deriving DecidableEq, Repr

/-- Class 0x7, POST (R55). -/
structure PostOps where
  chan : BitVec 4
  win : BitVec 4
  knot : BitVec 6
  rsv : BitVec 8
  deriving DecidableEq, Repr

/-- Class 0x7, MFREE and MPTR (R55): the channel and gCOUNT or gDST. -/
structure ChanOps where
  chan : BitVec 4
  g : BitVec 5
  rsv : BitVec 13
  deriving DecidableEq, Repr

/-- Class 0x8 (R55). -/
structure KnotOps where
  name : BitVec 5
  val : BitVec 5
  pred : BitVec 3
  rsv : BitVec 8
  deriving DecidableEq, Repr

/-- Class 0x9 (R55). -/
structure MoverOps where
  dpair : BitVec 4
  g : BitVec 5
  rsv : BitVec 12
  deriving DecidableEq, Repr

/-- Class 0xA (R55). -/
structure SysOps where
  g : BitVec 5
  g2 : BitVec 5
  idx : BitVec 8
  rsv : BitVec 2
  deriving DecidableEq, Repr

/-- One constructor per row of the table of operations and events (spec/opcode_table.json); those with operands stand first. -/
inductive Instr where
  /-- ADD, R56. -/
  | add (c : CoreId) (g : Guard) (o : RegOps)
  /-- SUB, R56. -/
  | sub (c : CoreId) (g : Guard) (o : RegOps)
  /-- AND, R56. -/
  | and_ (c : CoreId) (g : Guard) (o : RegOps)
  /-- OR, R56. -/
  | or_ (c : CoreId) (g : Guard) (o : RegOps)
  /-- XOR, R56. -/
  | xor_ (c : CoreId) (g : Guard) (o : RegOps)
  /-- SHL, R56. -/
  | shl (c : CoreId) (g : Guard) (o : RegOps)
  /-- SHR, R56. -/
  | shr (c : CoreId) (g : Guard) (o : RegOps)
  /-- SRA, R56. -/
  | sra (c : CoreId) (g : Guard) (o : RegOps)
  /-- MUL, R56. -/
  | mul (c : CoreId) (g : Guard) (o : RegOps)
  /-- MULH, R56. -/
  | mulh (c : CoreId) (g : Guard) (o : RegOps)
  /-- MIN, R56. -/
  | min_ (c : CoreId) (g : Guard) (o : RegOps)
  /-- MAX, R56. -/
  | max_ (c : CoreId) (g : Guard) (o : RegOps)
  /-- CEQ, R56. -/
  | ceq (c : CoreId) (g : Guard) (o : RegOps)
  /-- CNE, R56. -/
  | cne (c : CoreId) (g : Guard) (o : RegOps)
  /-- CLT, R56. -/
  | clt (c : CoreId) (g : Guard) (o : RegOps)
  /-- CLTU, R56. -/
  | cltu (c : CoreId) (g : Guard) (o : RegOps)
  /-- CGE, R56. -/
  | cge (c : CoreId) (g : Guard) (o : RegOps)
  /-- CGEU, R56. -/
  | cgeu (c : CoreId) (g : Guard) (o : RegOps)
  /-- PAND, R56. -/
  | pand (c : CoreId) (g : Guard) (o : RegOps)
  /-- POR, R56. -/
  | por (c : CoreId) (g : Guard) (o : RegOps)
  /-- PNOT, R56. -/
  | pnot (c : CoreId) (g : Guard) (o : RegOps)
  /-- ADDI, R56. -/
  | addi (c : CoreId) (g : Guard) (o : ImmOps)
  /-- ANDI, R56. -/
  | andi (c : CoreId) (g : Guard) (o : ImmOps)
  /-- ORI, R56. -/
  | ori (c : CoreId) (g : Guard) (o : ImmOps)
  /-- XORI, R56. -/
  | xori (c : CoreId) (g : Guard) (o : ImmOps)
  /-- SHLI, R56. -/
  | shli (c : CoreId) (g : Guard) (o : ImmOps)
  /-- SHRI, R56. -/
  | shri (c : CoreId) (g : Guard) (o : ImmOps)
  /-- SRAI, R56. -/
  | srai (c : CoreId) (g : Guard) (o : ImmOps)
  /-- CLTI, R56. -/
  | clti (c : CoreId) (g : Guard) (o : ImmOps)
  /-- MOVL, R56. -/
  | movl (c : CoreId) (g : Guard) (o : WideOps)
  /-- MOVH, R56. -/
  | movh (c : CoreId) (g : Guard) (o : WideOps)
  /-- BR, R56. -/
  | br (c : CoreId) (g : Guard) (off : BitVec 22)
  /-- CALL, R56. -/
  | call (c : CoreId) (g : Guard) (off : BitVec 22)
  /-- JR, R56. -/
  | jr (c : CoreId) (g : Guard) (o : JrOps)
  /-- LOOP, R56. -/
  | loop (c : CoreId) (g : Guard) (o : LoopOps)
  /-- LDW, R56. -/
  | ldw (c : CoreId) (g : Guard) (o : PoolOps)
  /-- LDH, R56. -/
  | ldh (c : CoreId) (g : Guard) (o : PoolOps)
  /-- LDB, R56. -/
  | ldb (c : CoreId) (g : Guard) (o : PoolOps)
  /-- STW, R56. -/
  | stw (c : CoreId) (g : Guard) (o : PoolOps)
  /-- STH, R56. -/
  | sth (c : CoreId) (g : Guard) (o : PoolOps)
  /-- STB, R56. -/
  | stb (c : CoreId) (g : Guard) (o : PoolOps)
  /-- LDV, R55. -/
  | ldv (c : CoreId) (g : Guard) (o : WidePoolOps)
  /-- STV, R55. -/
  | stv (c : CoreId) (g : Guard) (o : WidePoolOps)
  /-- LDD, R55. -/
  | ldd (c : CoreId) (g : Guard) (o : WidePoolOps)
  /-- STD, R55. -/
  | std (c : CoreId) (g : Guard) (o : WidePoolOps)
  /-- VADD, R56. -/
  | vadd (c : CoreId) (g : Guard) (o : VecOps)
  /-- VSUB, R56. -/
  | vsub (c : CoreId) (g : Guard) (o : VecOps)
  /-- VMUL, R56. -/
  | vmul (c : CoreId) (g : Guard) (o : VecOps)
  /-- VMAX, R56. -/
  | vmax (c : CoreId) (g : Guard) (o : VecOps)
  /-- VMIN, R56. -/
  | vmin (c : CoreId) (g : Guard) (o : VecOps)
  /-- VABS, R56. -/
  | vabs (c : CoreId) (g : Guard) (o : VecOps)
  /-- VNEG, R56. -/
  | vneg (c : CoreId) (g : Guard) (o : VecOps)
  /-- VAND, R56. -/
  | vand (c : CoreId) (g : Guard) (o : VecOps)
  /-- VOR, R56. -/
  | vor (c : CoreId) (g : Guard) (o : VecOps)
  /-- VXOR, R56. -/
  | vxor (c : CoreId) (g : Guard) (o : VecOps)
  /-- VSHL, R56. -/
  | vshl (c : CoreId) (g : Guard) (o : VecOps)
  /-- VSHR, R56. -/
  | vshr (c : CoreId) (g : Guard) (o : VecOps)
  /-- VSRA, R56. -/
  | vsra (c : CoreId) (g : Guard) (o : VecOps)
  /-- VFMA, R56. -/
  | vfma (c : CoreId) (g : Guard) (o : VecOps)
  /-- VRECIP, R56. -/
  | vrecip (c : CoreId) (g : Guard) (o : VecOps)
  /-- VRSQRT, R56. -/
  | vrsqrt (c : CoreId) (g : Guard) (o : VecOps)
  /-- VEXP2, R56. -/
  | vexp2 (c : CoreId) (g : Guard) (o : VecOps)
  /-- VREDSUM, R56. -/
  | vredsum (c : CoreId) (g : Guard) (o : VecOps)
  /-- VREDMAX, R56. -/
  | vredmax (c : CoreId) (g : Guard) (o : VecOps)
  /-- VCVT, R56. -/
  | vcvt (c : CoreId) (g : Guard) (o : VecOps)
  /-- VBCAST, R56. -/
  | vbcast (c : CoreId) (g : Guard) (o : VecOps)
  /-- VGETL, R56. -/
  | vgetl (c : CoreId) (g : Guard) (o : VecOps)
  /-- VACCRD, R56. -/
  | vaccrd (c : CoreId) (g : Guard) (o : VecOps)
  /-- VACCWR, R56. -/
  | vaccwr (c : CoreId) (g : Guard) (o : VecOps)
  /-- MXRUN, R59. -/
  | mxrun (c : CoreId) (g : Guard) (o : MatOps)
  /-- MXWAIT, R59. -/
  | mxwait (c : CoreId) (g : Guard) (o : MatOps)
  /-- MXSAT, R56. -/
  | mxsat (c : CoreId) (g : Guard) (o : MatOps)
  /-- MXSATCLR, R56. -/
  | mxsatclr (c : CoreId) (g : Guard) (o : MatOps)
  /-- SEND, R66. -/
  | send (c : CoreId) (g : Guard) (o : SendOps)
  /-- POST, R65. -/
  | post (c : CoreId) (g : Guard) (o : PostOps)
  /-- MFREE, R65. -/
  | mfree (c : CoreId) (g : Guard) (o : ChanOps)
  /-- MPTR, R65. -/
  | mptr (c : CoreId) (g : Guard) (o : ChanOps)
  /-- KSIG, R71. -/
  | ksig (c : CoreId) (g : Guard) (o : KnotOps)
  /-- KWAIT, R71. -/
  | kwait (c : CoreId) (g : Guard) (o : KnotOps)
  /-- KINIT, R71. -/
  | kinit (c : CoreId) (g : Guard) (o : KnotOps)
  /-- KARM, R71. -/
  | karm (c : CoreId) (g : Guard) (o : KnotOps)
  /-- KRD, R71. -/
  | krd (c : CoreId) (g : Guard) (o : KnotOps)
  /-- PMQ, R75. -/
  | pmq (c : CoreId) (g : Guard) (o : MoverOps)
  /-- PMWAIT, R75. -/
  | pmwait (c : CoreId) (g : Guard) (o : MoverOps)
  /-- KVWALK, R159. -/
  | kvwalk (c : CoreId) (g : Guard) (o : MoverOps)
  /-- NOP, R56. -/
  | nop (c : CoreId) (g : Guard) (o : SysOps)
  /-- SYSRD, R52. -/
  | sysrd (c : CoreId) (g : Guard) (o : SysOps)
  /-- SYSWR, R52. -/
  | syswr (c : CoreId) (g : Guard) (o : SysOps)
  /-- FENCE, R58. -/
  | fence (c : CoreId) (g : Guard) (o : SysOps)
  /-- HALT, R78. -/
  | halt (c : CoreId) (g : Guard) (o : SysOps)
  /-- MXRUN_ITERATION_DONE, R97. -/
  | mxrunIterationDone (c : CoreId)
  /-- MXRUN_COMPLETE, R64. -/
  | mxrunComplete (c : CoreId)
  /-- MSG_ARRIVE, R65. -/
  | msgArrive (src dst : CoreId)
  /-- KNOT_OP_APPLY, R72. -/
  | knotOpApply (idx : Nat)
  /-- PM_ENTRY_START, R75. -/
  | pmEntryStart (c : CoreId)
  /-- PM_ENTRY_COMPLETE, R75. -/
  | pmEntryComplete (c : CoreId) (idx : BitVec 4)
  /-- SCHEDULE_RECORD_ISSUE, R178. -/
  | scheduleRecordIssue (c : CoreId)
  /-- CMD_PORT_WRITE, R199. -/
  | cmdPortWrite (ws : List Word) (flt : TlpFault)
  /-- PORT_RESYNC_CMD, R207. -/
  | portResyncCmd (v : Word)
  /-- REPLY_REWIND, R211. -/
  | replyRewind (v : Word)
  /-- REPLY_PORT_READ, R211. -/
  | replyPortRead (n : BitVec 4)
  /-- INT_CAUSE_WRITE, R215. -/
  | intCauseWrite (v : Word)
  /-- INT_MASK_WRITE, R216. -/
  | intMaskWrite (v : Word)
  /-- XSPI_MODE_SET, R217. -/
  | xspiModeSet (v : Word)
  /-- REG_WRITE_OTHER, R193. -/
  | regWriteOther (reg : HostReg) (wide : Bool) (v : Word)
  /-- PERST_RESET, R192. -/
  | perstReset (flr : Bool)
  /-- XSPI_CS_WAKE, R375. -/
  | xspiCsWake (lowNs : Nat)
  /-- FREE_ZERO_DONE, R234. -/
  | freeZeroDone (slot : BitVec 16)
  /-- FLUSH_DONE, R234. -/
  | flushDone (slot : BitVec 16)
  /-- MIGRATE_DONE, R182. -/
  | migrateDone (slot : BitVec 16)
  /-- ITEM_DISPATCH, R77. -/
  | itemDispatch (p : PartId)
  /-- ITEM_COMPLETE, R78. -/
  | itemComplete (p : PartId)
  /-- PROGRAM_WINDOW_ENTER, R37. -/
  | programWindowEnter (ch : FlashCh)
  /-- PROGRAM_WINDOW_OPEN, R37. -/
  | programWindowOpen (ch : FlashCh)
  /-- PROGRAM_WINDOW_CLOSE, R37. -/
  | programWindowClose (ch : FlashCh)
  /-- FLASH_OP_ISSUE, R37. -/
  | flashOpIssue (ch : FlashCh)
  /-- ARBITER_GRANT, R34. -/
  | arbiterGrant (site : Site) (inst : Nat)
  /-- REQUEST_PAST, R35. -/
  | requestPast (site : Site) (inst port : Nat)
  /-- HOLD_CUT, R38. -/
  | holdCut (site : Site) (inst : Nat)
  /-- REPLICA_SAMPLE, R16. -/
  | replicaSample (at_ : MonitorId) (low : Bool)
  /-- SHORTFALL_AT_MAX, R16. -/
  | shortfallAtMax (dom : Dom)
  /-- DOMAIN_PACE_ACK, R17. -/
  | domainPaceAck (dom : Dom)
  /-- PACE_ACK_TIMEOUT, R20. -/
  | paceAckTimeout (r : Rail)
  /-- AVS_SETTLED, R18. -/
  | avsSettled (r : Rail)
  /-- PACE_APPLY, R18. -/
  | paceApply (r : Rail)
  /-- AVS_SETTLE_TIMEOUT, R20. -/
  | avsSettleTimeout (r : Rail)
  /-- AVS_FRAME_RESPONSE, R376. -/
  | avsFrameResponse (r : Rail) (crcOk : Bool)
  /-- THERMAL_SAMPLE, R379. -/
  | thermalSample (hub half0 half1 : List Int)
  /-- THERMAL_CAP_FALL, R380. -/
  | thermalCapFall (die : Die)
  /-- THERMAL_CAP_RISE, R380. -/
  | thermalCapRise (die : Die)
  /-- WATCHDOG_EXPIRE, R394. -/
  | watchdogExpire (p : PartId)
  /-- COMPUTE_RESET_COMPLETE, R395. -/
  | computeResetComplete (p : PartId) (failed : List SlotFail)
  /-- HUB_FAULT, R400. -/
  | hubFault (unit cause : BitVec 32)
  /-- HEARTBEAT, R413. -/
  | heartbeat (half : Half)
  /-- STEWARD_LOST, R413. -/
  | stewardLost (half : Half) (cause : BitVec 2)
  /-- LEASE_RENEW, R411. -/
  | leaseRenew (half : Half)
  /-- LEASE_ACQUIRE, R411. -/
  | leaseAcquire (half : Half)
  /-- STEWARD_CONTROL_WRITE, R412. -/
  | stewardControlWrite (half : Half) (unit : FabricUnit) (epoch : BitVec 48)
  /-- STEWARD_RESTART_TEST, R413. -/
  | stewardRestartTest (half : Half) (pass : Bool)
  /-- BRIDGE_PACKET_FAIL, R406. -/
  | bridgePacketFail (side : Half) (lane : BitVec 8) (retryFailed : Bool)
  /-- SPARE_LANE_TRAINED, R406. -/
  | spareLaneTrained (side : Half)
  /-- KNOT_SLOT_PARITY, R405. -/
  | knotSlotParity (index : BitVec 12)
  /-- SRAM_ROW_ERROR, R404: the array, the slot (0–79), slice (0–7) or hub SRAM (0 queue, 1 event, 2 admission, 3 other), and
  the row in it. Of a mere row: the 128-byte lines of allocation memory that it holds, and those of them that cannot be
  corrected, each with the physical page behind it. -/
  | sramRowError (arr : SramArray) (unit row : Nat) (uncorrectable : Bool) (held : List Nat) (bad : List (Nat × BitVec 22))
  /-- SCAN_START, R417. -/
  | scanStart (unit : Half)
  /-- SCAN_COMPLETE, R416. -/
  | scanComplete (unit : Half)
  /-- DIGEST_EPOCH, R420. -/
  | digestEpoch (half0 half1 : Option Word)
  /-- SAME_BANK_REFRESH, R281. -/
  | sameBankRefresh (sc : Subch) (bank : BitVec 2)
  /-- ZQ_CALIBRATION, R281. -/
  | zqCalibration (half : Half) (cs : RankSet)
  /-- MR4_POLL, R282. -/
  | mr4Poll (sc : Subch) (cs : RankSet) (interval : Nat)
  /-- NEIGHBOUR_REFRESH_ISSUE, R283. -/
  | neighbourRefreshIssue (sc : Subch)
  /-- SKEW_WINDOW, R280. -/
  | skewWindow (half : Half) (bursts : List Nat)
  /-- DRAM_BURST_READ, R287. -/
  | dramBurstRead (half : Half) (page : BitVec 22) (burst : BitVec 10) (ecc : Ecc) (use : PageUse)
  /-- MIGRATION_PAGE_COPIED, R288. -/
  | migrationPageCopied (half : Half) (ecc : Ecc) (use : PageUse)
  /-- PATROL_READ, R287. -/
  | patrolRead (half : Half) (cs : RankSet)
  /-- PARITY_ALERT, R291. -/
  | parityAlert (sc : Subch)
  /-- REPLAY_FAIL, R292. -/
  | replayFail (sc : Subch) (cs : RankSet)
  /-- FREQ_CHANGE_DONE, R285. -/
  | freqChangeDone (alerts : List (Subch × RankSet))
  /-- MERE_FILL_DONE, R102. -/
  | mereFillDone (half : Half) (line : Nat)
  /-- PEAT_READ_DONE, R300. -/
  | peatReadDone (lpn : BitVec 32) (bitErrors : List Nat)
  /-- PEAT_REREAD, R299. -/
  | peatReread (lpn : BitVec 32) (ok : Bool)
  /-- PEAT_PROGRAM_DONE, R303. -/
  | peatProgramDone (ch : FlashCh) (ok : Bool)
  /-- PEAT_ERASE_DONE, R301. -/
  | peatEraseDone (ch : FlashCh) (ok : Bool)
  /-- BLOCK_ERASE_START, R301. -/
  | blockEraseStart (block : BitVec 32)
  /-- PEAT_MOUNT, R305. -/
  | peatMount (read : MountRead)
  /-- FIRST_BOOT_MOUNT, R308. -/
  | firstBootMount (badBlocks : List (BitVec 32)) (rejected : List (FlashCh × BitVec 3))
  /-- CSI_FRAME_START, R326. -/
  | csiFrameStart (port : CsiPort) (vc : BitVec 4) (sensorFrame : BitVec 16)
  /-- CSI_LINE, R327. -/
  | csiLine (port : CsiPort) (vc : BitVec 4) (dt : BitVec 6) (payload : List Byte) (check : LineCheck) (ovr : Overflow)
  /-- CSI_FRAME_END, R327. -/
  | csiFrameEnd (port : CsiPort) (vc : BitVec 4)
  /-- CSI_PACKET_GAP, R328. -/
  | csiPacketGap (port : CsiPort)
  /-- CSI_LINK_TIMEOUT, R325. -/
  | csiLinkTimeout (port : CsiPort)
  /-- PIPE_FRAME_COMPLETE, R342. -/
  | pipeFrameComplete (pipe : BitVec 2)
  /-- PDM_PIN_ACTIVE, R347. -/
  | pdmPinActive (pin : BitVec 3)
  /-- PDM_PIN_INACTIVE, R347. -/
  | pdmPinInactive (pin : BitVec 3)
  /-- AUDIO_BLOCK_COMPLETE, R349. -/
  | audioBlockComplete (lp : List (List (BitVec 16))) (hq : List (List (BitVec 24)))
  /-- MOTION_WATCH_FRAME, R359. -/
  | motionWatchFrame (watch : Bool) (lineLen bits : Nat) (samples : List (List Nat))
  /-- PWR_MAINS_CHANGE, R385. -/
  | pwrMainsChange (level : Bool)
  /-- PWR_BATT_ACCEPT, R385. -/
  | pwrBattAccept (level : Bool)
  /-- PORST_RELEASE, R458. -/
  | porstRelease (bootSel bank0Ok bank1Ok : Bool)
  /-- TRAINING_COMPLETE, R273. -/
  | trainingComplete (popOk : Bool) (kit : DramKit) (last : RankSet) (results : List RankResult) (lowFails : List (Half × RankSet))
  /-- ENTROPY_STARTUP_DONE, R440. -/
  | entropyStartupDone (pass : Bool)
  /-- HOT_JOIN_REQUEST, R446. -/
  | hotJoinRequest (bus : Half)
  /-- ENTDAA, R445. -/
  | entdaa (bus : Half) (targets : List (BitVec 48))
  /-- I3C_RETRY, R447. -/
  | i3cRetry (bus : Half) (targets : List (BitVec 48))
  /-- ILLEGAL_INSTR, R54. -/
  | illegalInstr (c : CoreId) (w : BitVec 32)
  /-- PACKET_CHECK, R202. -/
  | packetCheck
  /-- EVENT_PORT_READ, R214. -/
  | eventPortRead
  /-- EVENT_AVAIL_READ, R214. -/
  | eventAvailRead
  /-- TIME_READ_LOW, R197. -/
  | timeReadLow
  /-- PERST_DEASSERT, R375. -/
  | perstDeassert
  /-- ECHO, R227. -/
  | echo
  /-- IDENTIFY, R228. -/
  | identify
  /-- GET_STATUS, R229. -/
  | getStatus
  /-- TENANT_OPEN, R423. -/
  | tenantOpen
  /-- TENANT_CLOSE, R232. -/
  | tenantClose
  /-- CONTEXT_OPEN, R233. -/
  | contextOpen
  /-- CONTEXT_CLOSE, R233. -/
  | contextClose
  /-- ALLOC, R234. -/
  | alloc
  /-- FREE, R234. -/
  | free
  /-- PUT, R176. -/
  | put
  /-- GET, R234. -/
  | get
  /-- FLUSH, R234. -/
  | flush
  /-- MIGRATE, R182. -/
  | migrate
  /-- WEAVE_LOAD, R236. -/
  | weaveLoad
  /-- WEAVE_BIND, R237. -/
  | weaveBind
  /-- WEAVE_DROP, R239. -/
  | weaveDrop
  /-- PARTITION_SET, R241. -/
  | partitionSet
  /-- RUN, R243. -/
  | run
  /-- QUERY_DUE, R244. -/
  | queryDue
  /-- CANCEL, R245. -/
  | cancel
  /-- DECIDE, R246. -/
  | decide
  /-- STREAM_OPEN, R128. -/
  | streamOpen
  /-- STREAM_STEP, R248. -/
  | streamStep
  /-- STREAM_CLOSE, R250. -/
  | streamClose
  /-- SEQ_OPEN, R147. -/
  | seqOpen
  /-- SEQ_FEED, R148. -/
  | seqFeed
  /-- SEQ_CLOSE, R254. -/
  | seqClose
  /-- CAMERA_SET, R255. -/
  | cameraSet
  /-- AUDIO_SET, R351. -/
  | audioSet
  /-- WAKE_SET, R362. -/
  | wakeSet
  /-- PREROLL_GET, R356. -/
  | prerollGet
  /-- POWER_STATE, R256. -/
  | powerState
  /-- PACE_SET, R257. -/
  | paceSet
  /-- BATTERY_BUDGET, R258. -/
  | batteryBudget
  /-- SCAN, R259. -/
  | scan
  /-- DIGEST, R260. -/
  | digest
  /-- PEAT_PROGRAM, R261. -/
  | peatProgram
  /-- PEAT_ERASE, R261. -/
  | peatErase
  /-- KIN_ENROL, R435. -/
  | kinEnrol
  /-- ENTROPY_GET, R442. -/
  | entropyGet
  /-- DUMP_GET, R264. -/
  | dumpGet
  /-- PARTITION_RESET, R265. -/
  | partitionReset
  /-- SPARE_MAP, R266. -/
  | spareMap
  /-- DEVICE_RESET, R267. -/
  | deviceReset
  /-- DEVICE_RESET_BEGIN, R267. -/
  | deviceResetBegin
  /-- TRANSITION_ITEM_START, R33. -/
  | transitionItemStart
  /-- EVENT_PASS, R40. -/
  | eventPass
  /-- THERMAL_DEGRADE_CLEAR, R381. -/
  | thermalDegradeClear
  /-- HARD_TRIP, R383. -/
  | hardTrip
  /-- BOOST_END, R384. -/
  | boostEnd
  /-- LEASE_EXPIRE, R411. -/
  | leaseExpire
  /-- FREQ_CHANGE_DRAINED, R285. -/
  | freqChangeDrained
  /-- JOURNAL_TAIL_TIMER, R303. -/
  | journalTailTimer
  /-- PEAT_PATROL, R299. -/
  | peatPatrol
  /-- TIER0_FRAME_DONE, R357. -/
  | tier0FrameDone
  /-- TIER1_HALT, R365. -/
  | tier1Halt
  /-- TIER1_LIMIT_EXPIRE, R365. -/
  | tier1LimitExpire
  /-- LINGER_EXPIRE, R366. -/
  | lingerExpire
  /-- POWER_TRANSITION_COMPLETE, R372. -/
  | powerTransitionComplete
  /-- PWR_MAINS_ACCEPT, R385. -/
  | pwrMainsAccept
  /-- MAINS_COUNT_RESTART, R387. -/
  | mainsCountRestart
  /-- MAINS_COUNT_COMPLETE, R387. -/
  | mainsCountComplete
  /-- MAINS_STABLE_WAKE, R375. -/
  | mainsStableWake
  /-- PFAIL_ASSERT, R389. -/
  | pfailAssert
  /-- PFAIL_GATE, R389. -/
  | pfailGate
  /-- PFAIL_RISE, R390. -/
  | pfailRise
  /-- PORST_ASSERT, R461. -/
  | porstAssert
  /-- POWER_ON_TIMER, R458. -/
  | powerOnTimer
  /-- VDD_HUB_RAISE, R458. -/
  | vddHubRaise
  /-- HUB_RELEASE, R458. -/
  | hubRelease
  /-- REFCLK_LOSS, R457. -/
  | refclkLoss
  /-- ENTROPY_RETRY, R440. -/
  | entropyRetry
  /-- HEALTH_TEST_FAIL, R441. -/
  | healthTestFail
  /-- DRBG_RESEED, R439. -/
  | drbgReseed
  /-- SCRUB_COMPLETE, R426. -/
  | scrubComplete
  /-- ALWAYS_ON_SUPPLY_LOSS, R424. -/
  | alwaysOnSupplyLoss
  /-- REFCLK_RETURN, R457. -/
  | refclkReturn
  deriving DecidableEq, Repr

end Sys2Proof
end

