-- ==== Sys2Proof/Config.lean ====
section
/-! DEFINITION. What one device fixes and the spec does not give, and the free values: constants without a body, so
that nothing can be proved of what they hold. -/

namespace Sys2Proof

/-- The device's grade, fused: JH-8840-E, else JH-8840-C; there are these two (R5, R195). -/
opaque Config.gradeE : Bool
/-- Device serial number (R228). -/
opaque Config.serial : Word
/-- IDENTIFY word 4 [47:0]: Ubtur version, weave format version, JH-4410 compatibility version (R228). -/
opaque Config.versions : BitVec 48
/-- The device identity private key, derived from the secret fused at manufacture (R432). -/
opaque Config.identityKey : Nat
/-- The outputs of the DRBG, by number of 64-bit words drawn (R439, R442). -/
opaque Config.drbg : Nat → Word
/-- The 128 fused bits that seed the neighbour-refresh generators (R284). -/
opaque Config.fuseSeed : BitVec 128
/-- A step of the 128-bit generator (R284): the spec gives no function. -/
opaque Config.genStep : BitVec 128 → BitVec 128
/-- Whether a generator's value is a draw of probability 2^−shift (R283). -/
opaque Config.genHit : BitVec 128 → Nat → Bool
/-- Words of the Ubtur trace, by dump number and dump word (R397: listed with each Ubtur release). -/
opaque Config.ubturTrace : Nat → Nat → Word
/-- A Tier 0 feature: by the latest samples of the channels it averages, and the band (R358: within one code of the exact
value, for whose power spectrum the spec gives no scale). -/
opaque Config.feature : List (List Int) → Nat → BitVec 8
/-- The second key of AES-256-XTS that goes with a tenant storage key of 256 bits (R437 names one key). -/
opaque Config.tweakKey : List Word → List (BitVec 8)
/-- The sealed record of the key store, by the numbers it holds (R432 gives no layout). -/
opaque Config.keyStorePage : List Nat → List (BitVec 8)
/-- The words of record kind 0x02 of the configuration digest (R419, which gives their contents and no layout): the settings,
the code of the full rate, the rank sets in service in each half. -/
opaque Config.memoryRecord : Word → Nat → Nat → Nat → List Word
/-- The physical page of a half that holds an allocation page (R275: the mapping belongs to Ubtur); 2^22 further on, its
staging page, and 2^23 further on, its index. -/
opaque Config.homePage : Nat → Nat
/-- The bank and row of a subchannel that hold a physical page's lines (R276), by subchannel and page: the spec places a page in
at most three banks and names none. -/
opaque Config.rowAt : Nat → Nat → Nat × Nat
/-- KEY of the address hash, fused per device (R276). -/
opaque Config.addrKey : BitVec 32
/-- A value the spec leaves open, by the model's own counter of such values. -/
opaque Config.freeWord : Nat → Word
/-- A lane value the spec leaves open: draw number and lane. -/
opaque Config.freeLane : Nat → Nat → BitVec 32

end Sys2Proof
end

