-- ==== Sys2Proof/Machine/Crc.lean ====
section
/-! DEFINITION. The check codes: CRC-32C (R201), CRC-64/NVME (R415), SHA-384 (R310, R419), all bit-exact. -/

namespace Sys2Proof.Machine

/-- One reflected CRC bit step. -/
def crcBit (poly x : Nat) : Nat := if x % 2 = 1 then (x / 2) ^^^ poly else x / 2

/-- Eight bit steps on a register that already holds the byte. -/
def crcByte (poly x : Nat) : Nat :=
  crcBit poly (crcBit poly (crcBit poly (crcBit poly (crcBit poly (crcBit poly (crcBit poly (crcBit poly x)))))))

/-- A reflected CRC register run over bytes. -/
def crcRun (poly : Nat) : Nat → List Byte → Nat
  | x, [] => x
  | x, b :: bs => crcRun poly (crcByte poly (x ^^^ b.toNat)) bs

/-- CRC-32C: polynomial 0x1EDC_6F41 reflected, initial value and final XOR all ones (R201). -/
def crc32c (bs : List Byte) : Nat := crcRun 0x82F63B78 0xFFFFFFFF bs ^^^ 0xFFFFFFFF

/-- CRC-64/NVME: polynomial 0xAD93_D235_94C9_3659 reflected, initial value and final XOR all ones (R415). -/
def crc64nvme (bs : List Byte) : Nat :=
  crcRun 0x9A6C9329AC4BC9B5 0xFFFFFFFFFFFFFFFF bs ^^^ 0xFFFFFFFFFFFFFFFF

/-- The CRC of the check word: over the 4 bytes of SEQ, then every preceding word (R201, R209). -/
def packetCrc (seq : Nat) (ws : List Word) : Nat := crc32c (leBytes 4 seq ++ wordsBytes ws)

/-- The first 80 primes' cube roots, 64 fraction bits (FIPS 180-4, which R310 and R419 name). -/
def primesBelow (n : Nat) : List Nat :=
  (List.range n).filter fun k => 2 ≤ k && (List.range k).all fun d => d < 2 || k % d != 0

/-- Integer cube root by bits. -/
def icbrtGo (n : Nat) : Nat → Nat → Nat
  | 0, r => r
  | k + 1, r => let t := r + 2 ^ k; icbrtGo n k (if t * t * t ≤ n then t else r)

def isqrtBits (n : Nat) : Nat → Nat → Nat
  | 0, r => r
  | k + 1, r => let t := r + 2 ^ k; isqrtBits n k (if t * t ≤ n then t else r)

/-- The round constants: fraction bits of the cube roots of the first 80 primes. -/
def sha512K : List (BitVec 64) := (primesBelow 410).map fun p => BitVec.ofNat 64 (icbrtGo (p * 2 ^ 192) 70 0)

/-- The initial value of SHA-384: fraction bits of the square roots of the ninth to sixteenth primes. -/
def sha384Init : List (BitVec 64) :=
  (((primesBelow 54).drop 8).take 8).map fun p => BitVec.ofNat 64 (isqrtBits (p * 2 ^ 128) 70 0)

/-- The message schedule, newest word first, extended by `k` words. -/
def shaSchedule : Nat → List (BitVec 64) → List (BitVec 64)
  | 0, w => w
  | k + 1, w =>
    let w2 := w.getD 1 0; let w7 := w.getD 6 0; let w15 := w.getD 14 0; let w16 := w.getD 15 0
    let s0 := w15.rotateRight 1 ^^^ w15.rotateRight 8 ^^^ (w15 >>> 7)
    let s1 := w2.rotateRight 19 ^^^ w2.rotateRight 61 ^^^ (w2 >>> 6)
    shaSchedule k ((w16 + s0 + w7 + s1) :: w)

structure ShaRegs where
  (a b c d e f g h : BitVec 64)

def shaRound (r : ShaRegs) (kw : BitVec 64 × BitVec 64) : ShaRegs :=
  let s1 := r.e.rotateRight 14 ^^^ r.e.rotateRight 18 ^^^ r.e.rotateRight 41
  let ch := (r.e &&& r.f) ^^^ ((~~~ r.e) &&& r.g)
  let t1 := r.h + s1 + ch + kw.1 + kw.2
  let s0 := r.a.rotateRight 28 ^^^ r.a.rotateRight 34 ^^^ r.a.rotateRight 39
  let mj := (r.a &&& r.b) ^^^ (r.a &&& r.c) ^^^ (r.b &&& r.c)
  ⟨t1 + (s0 + mj), r.a, r.b, r.c, r.d + t1, r.e, r.f, r.g⟩

/-- One block of 128 bytes. -/
def shaBlock (h : List (BitVec 64)) (blk : List Byte) : List (BitVec 64) :=
  let w0 := (List.range 16).map fun i => BitVec.ofNat 64 (ofBe ((blk.drop (8 * i)).take 8))
  let w := (shaSchedule 64 w0.reverse).reverse
  let x : ShaRegs := ⟨h.getD 0 0, h.getD 1 0, h.getD 2 0, h.getD 3 0, h.getD 4 0, h.getD 5 0, h.getD 6 0, h.getD 7 0⟩
  let y := (sha512K.zip w).foldl shaRound x
  [x.a + y.a, x.b + y.b, x.c + y.c, x.d + y.d, x.e + y.e, x.f + y.f, x.g + y.g, x.h + y.h]

def shaBlocks : Nat → List (BitVec 64) → List Byte → List (BitVec 64)
  | 0, h, _ => h
  | n + 1, h, bs => shaBlocks n (shaBlock h (bs.take 128)) (bs.drop 128)

/-- SHA-384 of a byte string: 48 bytes. -/
def sha384 (bs : List Byte) : List Byte :=
  let n := bs.length
  let pad := (239 - n % 128) % 128
  let msg := bs ++ [0x80] ++ List.replicate pad 0 ++ (leBytes 16 (8 * n)).reverse
  ((shaBlocks (msg.length / 128) sha384Init msg).take 6).flatMap fun w => (leBytes 8 w.toNat).reverse

end Sys2Proof.Machine
end

