-- ==== Sys2Proof/Machine/Sparse.lean ====
section
/-! DEFINITION. Sparse data in one canonical form: register files, pools, accumulators, tables and memory are
lists of (key, value) pairs, keys strictly rising, no entry equal to the default, so that equal contents are equal data. -/

namespace Sys2Proof.Machine

/-- A sparse map: keys strictly rising, and no value equal to the map's default. -/
abbrev SMap (α : Type) := List (Nat × α)

/-- The value at key `k`; `d` where nothing is listed. -/
def SMap.get {α : Type} (d : α) : SMap α → Nat → α
  | [], _ => d
  | (j, v) :: m, k => if j = k then v else SMap.get d m k

/-- The map without key `k`. -/
def SMap.erase {α : Type} : SMap α → Nat → SMap α
  | [], _ => []
  | (j, v) :: m, k => if j = k then SMap.erase m k else (j, v) :: SMap.erase m k

/-- The map with `v` listed at key `k`, in key order. -/
def SMap.insert {α : Type} : SMap α → Nat → α → SMap α
  | [], k, v => [(k, v)]
  | (j, w) :: m, k, v =>
    if j = k then (k, v) :: m else if k < j then (k, v) :: (j, w) :: m else (j, w) :: SMap.insert m k v

/-- The map with value `v` at key `k`; the default removes the entry. -/
def SMap.set {α : Type} [DecidableEq α] (d : α) (m : SMap α) (k : Nat) (v : α) : SMap α :=
  if v = d then SMap.erase m k else SMap.insert m k v

/-- The map with the value at `k` changed by `f`. -/
def SMap.modify {α : Type} [DecidableEq α] (d : α) (m : SMap α) (k : Nat) (f : α → α) : SMap α :=
  m.set d k (f (m.get d k))

/-- Every listed value changed by `f`; a value that becomes the default is no longer listed. -/
def SMap.mapV {α : Type} [DecidableEq α] (d : α) (m : SMap α) (f : α → α) : SMap α :=
  m.filterMap fun e => if f e.2 = d then none else some (e.1, f e.2)

/-- Every listed key is above `k`. -/
def SMap.above {α : Type} (k : Nat) (m : SMap α) : Bool := m.all (fun e => decide (k < e.1))

/-- The canonical form. -/
def SMap.wf {α : Type} [DecidableEq α] (d : α) : SMap α → Bool
  | [] => true
  | (k, v) :: m => decide (v ≠ d) && SMap.above k m && SMap.wf d m

/-- Writes of consecutive keys from `k`. -/
def SMap.setList {α : Type} [DecidableEq α] (d : α) (m : SMap α) (k : Nat) : List α → SMap α
  | [] => m
  | v :: vs => SMap.setList d (m.set d k v) (k + 1) vs

/-- The `n` values at keys `k … k + n - 1`. -/
def SMap.getList {α : Type} (d : α) (m : SMap α) (k : Nat) : Nat → List α
  | 0 => []
  | n + 1 => m.get d k :: SMap.getList d m (k + 1) n

/-- The map without the keys of `lo … hi - 1`. -/
def SMap.clear {α : Type} (m : SMap α) (lo hi : Nat) : SMap α :=
  m.filter (fun e => decide (e.1 < lo) || decide (hi ≤ e.1))

/-- The canonical map of 64-bit byte reads: `n` little-endian bytes at `a`, as a number. -/
def SMap.rdLe (m : SMap Byte) (a n : Nat) : Nat := ofLe (m.getList 0 a n)

/-- `n` little-endian bytes of `x` written at `a`. -/
def SMap.wrLe (m : SMap Byte) (a n x : Nat) : SMap Byte := m.setList 0 a (leBytes n x)

end Sys2Proof.Machine
end

