-- ==== Sys2Proof/Machine/State.lean ====
section
/-! DEFINITION. The device's state as plain data: everything the spec gives the JH-8840, the queue of waiting
commands and the state after reset. -/

namespace Sys2Proof.Machine

/-- Reasons a run stops with a fault. -/
inductive Fault where
  /-- Raised by the idle tick alone, when device time would pass 2^64 − 1 ns: R9 says it does not wrap during the
  life of the device. Safe: the machine stops where the hardware has no life left. -/
  | deviceTimeExhausted
  deriving DecidableEq, Repr

/-- Reasons a command has no meaning. -/
inductive Refusal where
  /-- The command has no meaning yet; raised by an arm of exec. Safe. -/
  | notModelled (mnemonic : String)
  deriving DecidableEq, Repr

/-! ### Names used throughout -/

/-- The command a reply answers: OPCODE, TAG, GEN, CONTEXT and SEQ (R209), and the port reset it came after (R192). -/
structure CmdId where
  op : Nat
  tag : Nat
  gen : Nat
  ctx : Nat
  seq : Nat
  epoch : Nat
  deriving DecidableEq, Repr

/-- A good packet that has passed checks 1 to 5 of R223: its words, t_admit (R202), and the demand items that each partition
held when its check passed (R27). -/
structure Packet where
  words : List Word
  tAdmit : Nat
  epoch : Nat
  held : SMap Nat
  deriving DecidableEq, Repr

/-- The five power states (R370), numbered as POWER_STATE numbers them (R256). -/
inductive Power where | run | hush | listen | ember | off
  deriving DecidableEq, Repr

/-- A counter that tenants read coarsened (R430): its count, the millisecond of its last change, and the count held
when that millisecond began. -/
structure Ctr where
  n : Nat := 0
  ms : Nat := 0
  snap : Nat := 0
  deriving DecidableEq, Repr

/-! ### Always-on domain -/

/-- A fault-log record (R392). -/
structure LogRec where
  time : Nat
  code : Nat
  part : Nat
  core : Option Nat
  number : Nat
  a : Nat
  b : Nat
  deriving DecidableEq, Repr

/-- Where the cold start stands (R458). -/
inductive Boot where | down | released | hubRail | hubUp | trained | done
  deriving DecidableEq, Repr

/-- The always-on domain and the pins that belong to no other part (R370, R385, R424, R449, R457, R461). -/
structure Aon where
  /-- The always-on domain is out of reset (R458). -/
  up : Bool
  /-- REFCLK_25M shows edges (R457). -/
  refclk : Bool
  /-- PORST_N is asserted. -/
  porstLow : Bool
  porstAt : Nat
  /-- BOOT_SEL as latched: true selects xSPI (R456). -/
  bootSel : Bool
  boot : Boot
  /-- The start of the present step of the cold start. -/
  bootAt : Nat
  gpio0 : Bool
  gpio1 : Bool
  /-- THERM_ALERT_N is driven low until PORST_N (R383, R457). -/
  thermAlert : Bool
  /-- Residency counters in ns, keyed as R371 orders the states. -/
  residency : SMap Nat
  /-- The fault log, oldest first, at most 256 records. -/
  log : List LogRec
  logCount : Nat
  /-- PERST_N low since, if low. -/
  perstLow : Option Nat
  /-- Escalation: times of the counted device-wide resets (R400). -/
  devResets : List Nat
  /-- Bank 1 of the fuses is in use; neither bank passed its check (R408). -/
  fuseBank : Bool
  fusesLost : Bool
  deriving DecidableEq, Repr

/-! ### Host port -/

/-- PORT_ERR (R204). -/
structure PortErr where
  cause : Nat
  headerOk : Bool
  wordIndex : Nat
  seq : Nat
  deriving DecidableEq, Repr

/-- The tag of a context: the generation last used, and whether its command is unanswered (R203). -/
structure Tag where
  used : Bool := false
  gen : Nat := 0
  busy : Bool := false
  deriving DecidableEq, Repr

/-- The place of a packet that asks no work in the order of replies (R210): its command, whether a tag is busy with it,
and its reply's status and results once complete. -/
structure Turn where
  id : CmdId
  tagged : Bool
  reply : Option (Nat × List Word)
  deriving DecidableEq, Repr

/-- The host port (R191–R219). -/
structure Port where
  /-- The command FIFO's words, oldest first (R198). -/
  fifo : List Word
  /-- Words of the packet in progress taken from the FIFO (R202). -/
  stage : List Word
  /-- Arrival side: index in the packet in progress, its header once arrived, its expected SEQ (R204). -/
  arrIdx : Nat
  arrHdr : Option Word
  arrSeq : Nat
  expSeq : Nat
  lastGood : Nat
  err : Option PortErr
  /-- The good packet that interpretation holds (R202, R429). -/
  interp : Option Packet
  /-- Packets that ask no work, in SEQ order, from their interpretation until their replies enter the queue: a reply
  that is complete waits here for those before it (R210). -/
  order : List Turn
  /-- Replies not read whole, in order; the read position in the first; the last reply finished, while a rewind can
  still reach it (R211). -/
  replies : List (List Word)
  rpos : Nat
  rlast : Option (List Word)
  rseq : Nat
  /-- What the last host read returned. -/
  readData : List Word
  /-- Bits [63:32] of device time latched by a 4-byte read of TIME (R197). -/
  timeHi : Nat
  cause : BitVec 8
  mask : BitVec 8
  creditThresh : Nat
  /-- MSI-X table bytes and pending bits (R194, R216). -/
  msix : SMap Byte
  msixPend : BitVec 8
  /-- Vectors of the MSI-X messages sent, oldest first. -/
  msixSent : List Nat
  /-- Bus Master Enable and the MSI-X function mask of the standard's configuration space (R191, R216). -/
  busMaster : Bool
  msixMasked : Bool
  xspiMode : Bool
  /-- HOST_IRQ_N is driven low (R216). -/
  irqLow : Bool
  /-- Port resets so far: a reply to a command of an earlier one is discarded (R192). -/
  epoch : Nat
  tags : SMap Tag
  deriving DecidableEq, Repr

/-! ### Events -/

/-- An event raised and not yet passed (R40, R212). -/
structure Ev where
  time : Nat
  source : Nat
  code : Nat
  w2 : Word
  w3 : Word
  deriving DecidableEq, Repr

/-- The event arbiter and the event FIFO (R40, R212–R214). -/
structure Events where
  waiting : List Ev
  seq : Nat
  /-- Records of four words. -/
  fifo : List (List Word)
  /-- Words already read of the first record. -/
  rpos : Nat
  /-- First number lost and records lost since the FIFO was last full (R214). -/
  gap : Option (Nat × Nat)
  lost : Nat
  deriving DecidableEq, Repr

/-! ### Paces and rails -/

/-- A replica monitor (R16): its consecutive low samples, the time of its last sample, and whether it reads a shortfall. -/
structure Monitor where
  lows : Nat := 0
  at_ : Option Nat := none
  short : Bool := false
  deriving DecidableEq, Repr

/-- A self-timed domain and its replica monitors (R14, R16). -/
structure DomSt where
  pace : Nat
  setPace : Nat
  on : Bool
  monitors : SMap Monitor
  /-- Shortfall at the rail's maximum since (R16). -/
  atMaxSince : Option Nat
  deriving DecidableEq, Repr

/-- What a rail is doing (R17, R18): waiting for acknowledges, waiting for the regulator, or waiting 20 µs. -/
inductive RailPhase where
  | acks (left : List Nat)
  | settling
  | settled
  deriving DecidableEq, Repr

/-- A transition of a rail: the new pace of each affected domain. -/
structure RailTrans where
  raising : Bool
  targets : List (Nat × Nat)
  old : List (Nat × Nat)
  /-- The voltage that the transition's AVSBus write commands. -/
  mv : Nat
  phase : RailPhase
  since : Nat
  deriving DecidableEq, Repr

/-- What is asked of a rail: a raise whatever its domains do, 10 mV more of offset (R16), and new paces of domains. -/
structure RailAsk where
  raise_ : Bool
  bump : Bool
  targets : List (Nat × Nat)
  deriving DecidableEq, Repr

/-- A rail: the voltage it has settled at, and the voltage that the last AVSBus write commanded. -/
structure RailSt where
  mv : Nat
  cmd : Nat
  /-- Offset added under R16. -/
  offset : Nat
  trans : Option RailTrans
  /-- Held, merged request (R19). -/
  held : Option RailAsk
  /-- Failed AVSBus frames in a row (R376). -/
  badFrames : Nat
  alarm : Bool
  deriving DecidableEq, Repr

/-- A PACE_SET or PARTITION_SET that waits for its domains (R242, R257). -/
structure PaceWait where
  id : CmdId
  doms : List Nat
  /-- The partition, for PARTITION_SET. -/
  part : Option Nat
  deriving DecidableEq, Repr

structure PaceSt where
  doms : SMap DomSt
  rails : SMap RailSt
  waits : List PaceWait
  /-- PFAIL_N raised a supply alarm that is still outstanding. -/
  pfailAlarm : Bool
  boostStart : Option Nat
  boostEnd : Option Nat
  deriving DecidableEq, Repr

/-! ### Thermal -/

structure Thermal where
  /-- Tj of hub, half 0, half 1 in 1/16 °C. -/
  tj : SMap Int
  /-- The cap of each die; 7 is no cap (R380). -/
  cap : SMap Nat
  /-- Last change of each cap, and since when its condition holds (R380). -/
  capAt : SMap Nat
  degrade : Bool
  /-- Since when Tj has been at or below 105 °C (R381). -/
  coolSince : Option Nat
  tripped : Bool
  deriving DecidableEq, Repr

/-! ### Power states -/

/-- A power-state transition, waiting under R33 or under way. -/
structure Trans where
  to_ : Power
  /-- The POWER_STATE that asked for it. -/
  id : Option CmdId
  asked : Nat
  /-- When its present hop started; none while it waits. -/
  started : Option Nat
  /-- A fall of PWR_MAINS was accepted while it ran: a hand-over starts at its end (R388). -/
  handOver : Bool
  deriving DecidableEq, Repr

/-- The PFAIL_N sequence (R389) or controlled shutdown (R382): when it began and where it ends. -/
structure Pfail where
  t0 : Nat
  toOff : Bool
  deriving DecidableEq, Repr

structure PowerSt where
  state : Power
  /-- When the state was entered. -/
  since : Nat
  trans : Option Trans
  pfail : Option Pfail
  /-- The level of PWR_MAINS, since when, and the level accepted (R385). -/
  mains : Bool
  mainsAt : Nat
  mainsAcc : Bool
  /-- When that level was accepted. -/
  mainsAccAt : Nat
  battAcc : Bool
  /-- Hand-over under way (R386). -/
  handOver : Bool
  onBattery : Bool
  /-- Start of the 2 s count (R387); whether it was stopped by a low not accepted. -/
  count : Option Nat
  countStopped : Bool
  /-- EMBER or OFF was entered under PFAIL_N or shutdown (R375). -/
  enteredByLoss : Bool
  /-- PFAIL_N is low (R390). -/
  pfailLow : Bool
  /-- The scout bundle has been gated since RUN was left (R373). -/
  scoutLost : Bool
  /-- BATTERY_BUDGET and what the episode has spent, mJ (R258, R368). -/
  budget : Nat
  spent : Nat
  deriving DecidableEq, Repr

/-! ### Cores, knots, messages -/

/-- What a core is doing (R399 word 0). -/
inductive CoreRun where
  | halted | running | faulted
  /-- A KWAIT's name, target and predicate. -/
  | waitKnot (name : W32) (target : Nat) (pred : BitVec 3)
  | waitMx | waitMover | waitSend
  deriving DecidableEq, Repr

/-- A tile descriptor in the array (R59): d[DPAIR], d[DPAIR+1], the geometry of d[DPAIR+2], iterations done. -/
structure MxJob where
  lo : BitVec 128
  hi : BitVec 128
  geom : BitVec 128
  iter : Nat
  deriving DecidableEq, Repr

/-- The kinds of page-mover entry: R74, and the records of R179 that move no pool data. -/
inductive MoverKind where
  | copy | gather | scatter | fillZero
  | fill (slot first pages : Nat)
  | drop (slot first pages : Nat)
  deriving DecidableEq, Repr

/-- A page-mover entry (R74, R75). -/
structure MoverEntry where
  kind : MoverKind
  src : Nat
  dst : Nat
  len : Nat
  doneEn : Bool
  doneKnot : Nat
  delta : Nat
  started : Bool
  done : Bool
  /-- The number its transfers carry once it has started. -/
  ticket : Nat := 0
  deriving DecidableEq, Repr

/-- A receive window (R65): base offset, flits, knot, write point in flits, flits used; 0 flits is closed. -/
structure Chan where
  base : Nat := 0
  flits : Nat := 0
  knot : Nat := 0
  wp : Nat := 0
  used : Nat := 0
  deriving DecidableEq, Repr

/-- The schedule engine (R178): list offset, records, mark knot, next record. -/
structure Sched where
  list : Nat := 0
  count : Nat := 0
  mark : Nat := 0
  next : Nat := 0
  deriving DecidableEq, Repr

/-- One logical core (R48, R51, R52). -/
structure Core where
  g : SMap W32
  d : SMap (BitVec 128)
  p : SMap Bool
  v : SMap (BitVec 2048)
  /-- Accumulators: row × 64 + column (R48). -/
  acc : SMap W32
  sat : SMap W32
  /-- Counters that have raised CALIB_DRIFT (R98), and the thresholds taken up at bind (R322). -/
  satFired : SMap Bool
  thresh : SMap W32
  pool : SMap Byte
  pc : Nat
  run : CoreRun
  part : Bool
  entry : Nat
  gen : Nat
  deadline : Nat
  timeHi : Nat
  control : Bool
  staleMsg : Nat
  staleKnot : Nat
  user0 : W32
  mx : List MxJob
  mover : List MoverEntry
  /-- Copies that a KVWALK in progress has still to emit (R159). -/
  walk : List MoverEntry
  chans : SMap Chan
  sched : Sched
  /-- The result block named by HALT (R78): offset and words. -/
  result : Nat × Nat
  deriving DecidableEq, Repr

structure Knot where
  count : Nat := 0
  gen : Nat := 0
  deriving DecidableEq, Repr

/-- A global knot: count, generation, owning partition, arm, and whether a spare slot stands behind it. -/
structure GKnot where
  count : Nat := 0
  gen : Nat := 0
  owner : Option Nat := none
  arm : Option Nat := none
  spare : Bool := false
  withdrawn : Bool := false
  /-- The slot has failed and its replacement waits for a reset of the owner (R405). -/
  failed : Bool := false
  deriving DecidableEq, Repr

/-- A posted KSIG or KARM on its way (R73). -/
structure KnotOp where
  core : Nat
  name : W32
  val : Nat
  arm : Bool
  deriving DecidableEq, Repr

/-- A message in flight (R66). -/
structure Msg where
  src : Nat
  dst : Nat
  chan : Nat
  gen : Nat
  lst : Nat
  data : List Byte
  /-- Its number, and its place in the order of arrival at the receiver's crossbar port, once it is there (R69). -/
  id : Nat
  turn : Option Nat
  deriving DecidableEq, Repr

/-- The compute fabric. -/
structure Fabric where
  cores : SMap Core
  lknots : SMap Knot
  gknots : SMap GKnot
  knotOps : List KnotOp
  msgs : List Msg
  /-- Per bundle, the physical slot of each logical core: keyed bundle × 4 + core; default is the core's own number. -/
  slots : SMap (Option Nat)
  spareUsed : SMap Bool
  degraded : SMap Bool
  knotSpares : Nat
  deriving DecidableEq, Repr

/-! ### Arbiters -/

/-- A port of an arbiter site that a transfer still has to pass, and the units of transfer it moves there (R39, R43). -/
structure Hop where
  site : Site
  inst : Nat
  port : Nat
  units : Nat := 1
  /-- At a memory port, the physical page of the half that it reads or writes. -/
  page : Option Nat := none
  deriving DecidableEq, Repr

/-- What a transfer is part of: a message; a page-mover entry, by core and ticket; the fill of a mere line; the read of a peat
page; a program or erase of a channel; the zeroing of a freed slot; a scan unit; the pages of a slot on their way to a home (FLUSH, MIGRATE); the copy of a rank set in a half; a patrol;
a refresh of a bank index; a refresh-management command that a bank's activations require; a neighbour refresh; lines on their way to DRAM; the steward; the hub; a tenant
scrub; the outputs of an ISP pipe. -/
inductive Xfer where
  | msg (id : Nat)
  | mover (core ticket : Nat)
  | fill (half : Bool) (line : Nat)
  | peatRead (lpn : Nat)
  | flash (ch : Nat)
  | zero (slot : Nat)
  | scan (unit : Nat)
  | home (slot : Nat)
  | copy (half : Nat)
  | patrol (rank : Nat)
  | refresh (bank : Nat)
  | rfm (bank : Nat)
  | neighbour
  | landing
  | steward
  | hub
  | scrub
  | pipe (i : Nat)
  deriving DecidableEq, Repr

/-- Whom a transfer serves: its partition and core, if it has them, and what it is part of. -/
structure Job where
  part : Option Nat
  core : Option Nat
  what : Xfer
  deriving DecidableEq, Repr

/-- A raised request (R34, R35): the units still to be granted here, the latest-service time in 16 ns units modulo 2^32, the
16 ns unit of device time since which it is past, if past, and the ports it passes after this one. -/
structure Req where
  site : Site
  inst : Nat
  port : Nat
  units : Nat
  lst : Nat
  past : Option Int
  job : Job
  route : List Hop
  page : Option Nat := none
  deriving DecidableEq, Repr

structure Holder where
  site : Site
  inst : Nat
  port : Nat
  since : Nat
  lst : Nat
  job : Job
  route : List Hop
  deriving DecidableEq, Repr

structure Arb where
  reqs : List Req
  holders : List Holder
  /-- The model's numbers for transfers, in the order in which they arise. -/
  next : Nat
  deriving DecidableEq, Repr

/-! ### Weaves -/

structure Section_ where
  core : Nat
  base : Nat
  entryTab : Nat
  thresh : Nat
  bytes : List Byte
  deriving DecidableEq, Repr

/-- A content page table entry (R319): its index, where its ciphertext lies in the image, its allocation, page and tag. -/
structure Content where
  index : Nat
  off : Nat
  len : Nat
  alloc : Nat
  page : Nat
  tag : List Byte
  deriving DecidableEq, Repr

structure PlanAlloc where
  flags : Word
  pages : Nat
  map : Bool
  first : Nat
  contents : Nat
  segs : List Nat
  deriving DecidableEq, Repr

structure EntryRec where
  argOff : Nat
  argWords : Nat
  kind : Nat
  peak0 : Nat
  peak1 : Nat
  /-- Per core descriptor: LIST, COUNT, MARK_KNOT. -/
  scheds : List (Nat × Nat × Nat)
  deriving DecidableEq, Repr

structure ClassRec where
  width : Nat
  decision : Bool
  bundles : Nat
  rowFirst : Nat
  rowLast : Nat
  stepEntry : Nat
  decEntry : Nat
  bMax : Nat
  gMax : Nat
  feats : Nat
  stepWords : Nat
  resWords : Nat
  deriving DecidableEq, Repr

structure ServRec where
  entry : Nat
  layers : Nat
  budget : Nat
  chunk : Nat
  kvPages : Nat
  ctxMax : Nat
  frames : Nat
  kv0 : Nat
  kv1 : Nat
  tableBase : Nat
  pw : Nat
  mFix : Nat
  deriving DecidableEq, Repr

structure WSrc where
  ref : Nat
  pagesF : Nat
  pagesP : Nat
  linesF : Nat
  linesP : Nat
  blocksF : Nat
  blocksP : Nat
  deriving DecidableEq, Repr

structure Wcet where
  wF : Nat
  wP : Nat
  listsF : Nat
  listsP : Nat
  srcs : List WSrc
  deriving DecidableEq, Repr

/-- A loaded weave (R309–R318). -/
structure Weave where
  gen : Nat
  imageId : Nat
  kinSet : Nat
  compat : Bool
  /-- Source: the allocation slot, or the first logical peat page and the pages. -/
  srcSlot : Option Nat
  srcPage : Nat
  srcPages : Nat
  digest : Nat
  sections : List Section_
  entries : List EntryRec
  allocs : List PlanAlloc
  classes : List ClassRec
  serving : Option ServRec
  contents : List Content
  /-- The content key, which the security engine holds until the weave is unloaded (R311). -/
  key : List Byte
  wcet : List Wcet
  bundles : Nat
  control : Nat
  knots : Nat
  bindOff : Nat
  attach : Nat
  /-- Bound to partition; the slots of the plan allocations and of the attachments; the global knots. -/
  bound : Option Nat
  planSlots : List Nat
  attSlots : List Nat
  knotIdx : List Nat
  deriving DecidableEq, Repr

/-! ### Tenant, memory -/

/-- An allocation (R165, R166, R169). -/
structure Alloc where
  gen : Nat
  p0 : Nat
  pages : Nat
  flags : Word
  peat : Bool
  /-- The weave slot whose plan it belongs to. -/
  plan : Option Nat
  map : Bool
  windowFrames : Nat
  /-- MIGRATE under way: to peat?, its command. -/
  migrating : Option (Bool × CmdId)
  /-- After a migration to peat: the commands admitted before, for which its DRAM pages are still held (R182). -/
  held : List CmdId
  /-- FLUSH commands under way: pages marked, command. -/
  flushes : List (List Nat × CmdId)
  /-- FREE with SCRUB_ON_FREE: the command waiting for the zeroing. -/
  freeing : Option CmdId
  deriving DecidableEq, Repr

/-- A stream-table entry (R127). -/
structure Stream where
  gen : Nat
  row : Nat
  firstCore : Nat
  width : Nat
  cls : Nat
  reset : Bool
  fresh : Bool
  lastStep : Nat
  /-- The weave slot and the partition whose class it is. -/
  weave : Nat
  deriving DecidableEq, Repr

/-- A sequence-table slot (R146); `phase` 0 FREE, 1 IDLE, 2 FEEDING. -/
structure Seqn where
  id : Nat := 0
  gen : Nat := 0
  phase : Nat := 0
  half : Bool := false
  pending : Bool := false
  lost : Bool := false
  length : Nat := 0
  promptLeft : Nat := 0
  genLeft : Nat := 0
  lastToken : Nat := 0
  stop : Nat := 0
  feedOrder : Nat := 0
  lastStep : Nat := 0
  /-- The feed's command, the prompt tokens not consumed, the tokens sampled, CANCEL seen; frames held and reserved. -/
  feed : Option CmdId := none
  prompt : List Nat := []
  tokens : List Nat := []
  cancelled : Bool := false
  /-- Frame by token page, as the batcher assigned it. -/
  frames : SMap (Option Nat) := []
  reserved : Nat := 0
  /-- The feed's due: that of the item of its last step at admission (R150). -/
  due : Nat := 0
  deriving DecidableEq, Repr

/-- A step of a run, or a member of a step item. -/
structure Member where
  id : CmdId
  tAdmit : Nat
  /-- Stream ID, or sequence slot. -/
  key : Nat
  data : List Word
  top : Nat
  count : Nat
  kv : Nat
  sample : Bool
  /-- A cause of R32 was raised since its admission. -/
  cause : Bool
  deriving DecidableEq, Repr

/-- What a demand item runs: a RUN, a class run (class, decision), or a serving step. -/
inductive ItemKind where
  | run
  | cls (c : Nat) (decision : Bool)
  | serve
  deriving DecidableEq, Repr

/-- A demand item (R28). -/
structure Item where
  kind : ItemKind
  weave : Nat
  entry : Nat
  d : Nat
  seq : Nat
  c : Nat
  w : Nat
  m : Nat
  pace : Nat
  exposed : Bool
  spent : Bool
  tight : Bool
  peat : Bool
  /-- R242: dispatch waits for the raise. -/
  waitRaise : Bool
  members : List Member
  deriving DecidableEq, Repr

/-- The running item: dispatch time, whether its run met a cause of R32, and the lowest pace met (R394). -/
structure Running where
  item : Item
  at_ : Nat
  met : Bool
  pmin : Nat
  deriving DecidableEq, Repr

/-- A compute reset under way (R395). -/
structure Reset where
  t0 : Nat
  noSlotTest : Bool
  exposed : Nat
  /-- PARTITION_RESET commands answered at its end (R265). -/
  waits : List CmdId
  deriving DecidableEq, Repr

/-- A partition (R238), its demand items and its counters. -/
structure Part where
  defined : Bool
  bundles : Nat
  pg : Nat
  compat : Bool
  oos : Bool
  weave : Option Nat
  items : List Item
  running : Option Running
  nextSeq : Nat
  reset : Option Reset
  resetTimes : List Nat
  staleKnot : Ctr
  itemsDone : Ctr
  mxDone : Ctr
  pmLines : Ctr
  mereMiss : Ctr
  dramBursts : Ctr
  peatReads : Ctr
  deriving DecidableEq, Repr

/-- Tenancy (R422). -/
inductive Tenancy where | closed | open_ | scrubbing
  deriving DecidableEq, Repr

structure Tenant where
  state : Tenancy
  id : Nat
  /-- The tenant storage key, four words of DRBG output, as the always-on domain retains it (R438). -/
  key : Option (List Word)
  contexts : SMap Bool
  allocGen : Nat
  weaveGen : Nat
  streamGen : Nat
  seqGen : Nat
  feedOrder : Nat
  allocs : SMap (Option Alloc)
  weaves : SMap (Option Weave)
  streams : SMap (Option Stream)
  seqs : SMap Seqn
  /-- The scrub: when it began, the TENANT_CLOSE or DEVICE_RESET it answers, paused. -/
  scrubAt : Nat
  scrubId : Option CmdId
  scrubPaused : Bool
  deriving DecidableEq, Repr

/-- A fill under way in a mere (R102): its first line and number of lines, the reads that wait, and the peat pages still to be
read for it. -/
structure Fill where
  half : Bool
  line : Nat
  count : Nat
  waiters : Nat
  lpns : List Nat
  deriving DecidableEq, Repr

/-- How a page stands at its home (R183): never written, raw, or a plait image. -/
inductive PageForm where
  | fresh
  | raw
  | plait (img : List Byte)
  deriving DecidableEq, Repr

/-- Allocation memory: contents by page × 65,536 + byte (R165), what the meres and the bitmaps record. -/
structure Mem where
  bytes : SMap Byte
  dirty : SMap Bool
  dirtyPages : SMap Bool
  staged : SMap Bool
  poison : SMap Bool
  /-- The form of each page at its home, and its image (R183). -/
  form : SMap PageForm
  window : SMap Bool
  /-- Pages of which every line lies in their reserved frame (R172). -/
  full : SMap Bool
  fills : List Fill
  /-- Cache lines of each mere, most recently used first: (half, line). -/
  cached : List (Bool × Nat)
  /-- Pages written since a FLUSH took them down: they are not at home when it is done (R175, R234). -/
  rewritten : SMap Bool
  deriving DecidableEq, Repr

/-! ### DRAM controller -/

inductive RankState where | absent | excluded | service | spare | copying | retired
  deriving DecidableEq, Repr

structure HalfDram where
  ranks : SMap RankState
  /-- Corrected bursts of each rank set with the time of each (R287). -/
  ces : SMap (List Nat)
  retired : List Nat
  /-- The copy to the spare (R288): source rank set, next page. -/
  copy : Option (Nat × Nat)
  spareUsed : Option Nat
  failed : SMap Bool
  gen128 : BitVec 128
  draws : Nat
  deriving DecidableEq, Repr

/-- A pending neighbour refresh (R283): its latest-service time, the bank and row activated, and whether it is a directed
refresh of that row, else a same-bank refresh-management command to that bank. -/
structure Neighbour where
  due : Nat
  bank : Nat
  row : Nat
  directed : Bool
  deriving DecidableEq, Repr

/-- A command that a memory port has issued (R291): when, and the request it served. -/
structure Issued where
  at_ : Nat
  req : Req
  deriving DecidableEq, Repr

structure SubDram where
  /-- The time up to which each bank index has paid its refreshes, and the interval (R281, R282). -/
  paid : SMap Nat
  interval : Nat
  mr4At : SMap Nat
  mr4Want : SMap Nat
  neighbours : List Neighbour
  /-- Activations of each bank that no refresh management has answered (R283). -/
  activations : SMap Nat
  /-- The last 64 commands, oldest first, and those that the recovery under way reissues (R291). -/
  retry : List Issued
  replay : List Issued
  /-- Parity recovery: under way since, failed replays, end of the last one (R291, R292). -/
  alertAt : Option Nat
  replays : Nat
  replayEnd : Nat
  skewRuns : Nat
  skewSince : Nat
  skewRaised : Nat
  deriving DecidableEq, Repr

structure Dram where
  settings : Word
  /-- Pages of 64 KiB of a rank set in each half (R268, R275). -/
  rankPages : Nat
  rate : FullRate
  low : Bool
  /-- Data rates in MT/s of the two shadow timing sets, full and low, as training stored them (R273, R285). -/
  fullSet : Option Nat
  lowSet : Option Nat
  /-- The components, and the time from which their refresh debts count (R281). -/
  kit : DramKit
  refreshFrom : Nat
  selfRefresh : Bool
  trained : Bool
  halves : SMap HalfDram
  subs : SMap SubDram
  zqAt : SMap Nat
  patrol : SMap Nat
  /-- A frequency change (R285): its start, drained. -/
  freq : Option (Nat × Bool)
  deriving DecidableEq, Repr

/-! ### Peat -/

inductive FlashKind where | program | erase | commit
  deriving DecidableEq, Repr

/-- A flash program or erase, waiting or under way. -/
structure FlashOp where
  kind : FlashKind
  lpn : Nat
  phys : Nat
  seq : Nat
  data : List Byte
  since : Nat
  started : Nat
  /-- A PEAT_ERASE taken after it releases the page again. -/
  dead : Bool := false
  /-- The model's number of a program, by which a reply waits for it. -/
  id : Nat := 0
  deriving DecidableEq, Repr

/-- A physical page that is programmed: its sectors of data, metadata and parity (R296). -/
structure PhysPage where
  sectors : List (List Byte)
  deriving DecidableEq, Repr

structure Block where
  erases : Nat := 0
  next : Nat := 0
  retired : Bool := false
  relocate : Bool := false
  interrupted : Bool := false
  deriving DecidableEq, Repr

/-- A program window (R37). -/
inductive Window where
  | none
  | pending (since : Nat)
  | opened (since : Nat)
  deriving DecidableEq, Repr

/-- A write of the key store under way (R432): what it commits, and the tenant that TENANT_OPEN opens with it. -/
structure KsWrite where
  owner : Option (Nat × Nat)
  kin : List (Nat × Nat)
  counter : Nat
  /-- TENANT_ID and the storage key drawn for it. -/
  tenant : Option (Nat × List Word)
  deriving DecidableEq, Repr

/-- A reply that waits for programs and their journal commit (R303): the numbers of the programs still to be done, pages
programmed, the count of journal records that must be committed, the result words, and the key-store write it stands for. -/
structure PeatWait where
  id : CmdId
  left : List Nat
  done : Nat
  need : Nat
  words : List Word
  ks : Option KsWrite
  /-- A program failed with no spare block left: the answer is FAULTED (R261). -/
  failed : Bool := false
  deriving DecidableEq, Repr

/-- The four words of a journal record (R302). -/
abbrev JRec := List Word

/-- A journal page of a ring: its number in the ring, and the records before its all-ones records (R302). -/
structure JPage where
  num : Nat
  recs : List JRec
  deriving DecidableEq, Repr

/-- A copy of the boot image (R306): whether its first page decodes, the board record in it, and whether its Ubtur image's
signature verifies against Horlon's key. -/
structure BootCopy where
  decodes : Bool
  board : List Word
  signed : Bool
  deriving DecidableEq, Repr

structure Peat where
  mounted : Bool
  /-- The four copies of the boot image, blocks 0 and 1 of channel 0, then of channel 1; words 0–7 of the board record that was
  read last (R306). -/
  boots : List BootCopy
  board : List Word
  /-- Targets, channel × 8 + target, left unused at the last mount (R294). -/
  rejected : List Nat
  allocPages : Nat
  /-- Physical page of each logical page, in half 0's DRAM (R301); device-area pages, which the journal locates (R305), stand
  beside. -/
  map : SMap (Option Nat)
  dev : SMap (Option Nat)
  /-- The SEQ that each logical page's program carried; 0 for a page written in production (R297). -/
  expect : SMap Nat
  pages : SMap (Option PhysPage)
  blocks : SMap Block
  /-- The open block of each target, keyed channel × 8 + target. -/
  openBlk : SMap (Option Nat)
  /-- First logical page and number of peat pages of an allocation page's stored image (R186, R301). -/
  cells : SMap (Option (Nat × Nat))
  seq : Nat
  /-- Journal records not committed to both rings, oldest first, each with the time it was appended (R303). -/
  tail : List (Nat × JRec)
  /-- Records appended and committed so far; how far each ring holds them, by channel. -/
  appended : Nat
  committed : Nat
  ringUpto : SMap Nat
  /-- The pages of the two rings, keyed by channel 0 and 2, oldest first (R302). -/
  rings : SMap (List JPage)
  opNext : Nat
  queue : SMap (List FlashOp)
  busy : SMap (Option FlashOp)
  windows : SMap Window
  lastWindow : SMap (Option Nat)
  waits : List PeatWait
  poison : SMap Bool
  /-- Background re-reads left for an uncorrectable page (R299). -/
  rereads : SMap Nat
  retiredBlocks : Nat
  patrolAt : Nat
  patrolLpn : Nat
  deriving DecidableEq, Repr

/-! ### Cameras -/

/-- A context's slot on a CSI-2 port (R324): its number, the block's two words. -/
structure PortSlot where
  num : Nat
  ctx : Nat
  w3 : Word
  w4 : Word
  deriving DecidableEq, Repr

/-- A frame being received on a virtual channel (R327). -/
structure Frame where
  number : Nat
  sensor : Nat
  at_ : Nat
  deriving DecidableEq, Repr

structure CsiSt where
  link : Bool
  /-- The last packet with a valid header, and the last packet of any kind. -/
  lastPacket : Nat
  lastAny : Nat
  slots : List PortSlot
  numbers : SMap Nat
  frames : SMap (Option Frame)
  deriving DecidableEq, Repr

/-- A context's slot on a pipe (R333): its number, words 3 to 94, frames processed, what the next record reports. -/
structure PipeSlot where
  num : Nat
  ctx : Nat
  block : List Word
  frames : Nat
  skipped : Nat
  badLines : Nat
  deriving DecidableEq, Repr

/-- The frame a pipe processes: the slot as it stood at its Frame Start, port, channel, frame, the lines taken (each a
list of samples; a bad line as it was replaced). -/
structure PipeFrame where
  slot : PipeSlot
  port : Nat
  vc : Nat
  frame : Frame
  lines : List (List Nat)
  truncated : Bool
  overrun : Bool
  received : Nat
  badLines : Nat
  deriving DecidableEq, Repr

/-- A CAMERA_SET, or a slot's release at CONTEXT_CLOSE (no command), that waits for its boundary (R332). -/
structure CamWait where
  id : Option CmdId
  ctx : Nat
  target : Nat
  block : List Word
  deriving DecidableEq, Repr

structure Pipe where
  slots : List PipeSlot
  cur : Option PipeFrame
  deriving DecidableEq, Repr

structure Cam where
  csi : SMap CsiSt
  pipes : SMap Pipe
  waits : List CamWait
  deriving DecidableEq, Repr

/-! ### Listening and Tier 0 -/

/-- A context's front-end slot (R350): its number, words 3–6. -/
structure AudSlot where
  num : Nat
  ctx : Nat
  words : List Word
  deriving DecidableEq, Repr

/-- An AUDIO_SET, or a slot's release at CONTEXT_CLOSE, that waits for the start of a block, the first it governs (R351). -/
structure AudWait where
  id : Option CmdId
  ctx : Nat
  words : List Word
  block : Nat
  deriving DecidableEq, Repr

/-- ADPCM state of a channel (R353). -/
structure Adpcm where
  pred : Int := 0
  index : Nat := 0
  deriving DecidableEq, Repr

structure Audio where
  slots : List AudSlot
  waits : List AudWait
  /-- Pins of PRESENT that are active (R347). -/
  pins : SMap Bool
  link : Bool
  /-- The next block to complete; blocks that start before this device time are GAP (R351). -/
  nextBlock : Nat
  gapUntil : Nat
  adpcm : SMap Adpcm
  /-- The pre-roll ring, bytes of 1,024 slots of 1,416 (R355). -/
  ring : SMap Byte
  /-- The last 512 samples of each channel, oldest first, for the features (R358). -/
  recent : SMap (List Int)
  deriving DecidableEq, Repr

/-- The wake table in force (R362): its holder and words 3 to 5 + n, and the Tier 0 image. -/
structure WakeTable where
  ctx : Nat
  words : List Word
  image : List Byte
  t1Slots : List Nat
  deriving DecidableEq, Repr

structure Watch where
  background : SMap Int
  diff : SMap Int
  frames : Nat
  height : Nat
  deriving DecidableEq, Repr

/-- A Tier 1 run (R365): when it was dispatched, its weave's slot, T1_LIMIT in ms. -/
structure Tier1 where
  at_ : Nat
  weave : Nat
  limit : Nat
  deriving DecidableEq, Repr

structure Cascade where
  table : Option WakeTable
  /-- The table, or its release, that governs from the next frame (R362). -/
  next : Option (Option WakeTable)
  /-- The frame under way, by its block; whether that block is GAP. -/
  frameBlock : Option Nat
  gapFrame : Bool
  scores : SMap Int
  /-- Features of the last 100 frames of each input, newest first (R358). -/
  feats : SMap (List (List Int))
  holds : SMap Nat
  refractory : SMap Nat
  watches : SMap Watch
  tier1 : Option Tier1
  /-- The device was raised by the cascade (R366), and LINGER runs since. -/
  raised : Bool
  linger : Option Nat
  /-- A Tier 1 run that waits for HUSH (R364): rule, cause, block. -/
  waiting : Option (Nat × Nat × Nat)
  /-- Start of LISTEN → HUSH of a wake that is charged, on battery (R368). -/
  chargeFrom : Option Nat
  deriving DecidableEq, Repr

/-! ### Faults, stewards, scans -/

structure Scan where
  id : CmdId
  slot : Nat
  allocGen : Nat
  alg : Nat
  fold : Nat
  off : Nat
  len : Nat
  stride : Nat
  first : Nat
  deriving DecidableEq, Repr

structure Stew where
  lost : Bool
  beat : Nat
  /-- Epoch it last received (R412). -/
  epoch : Nat
  demoted : Bool
  /-- When the hub restarted it after a loss, while its test is to come (R413). -/
  restartAt : Option Nat
  deriving DecidableEq, Repr

/-- The hub's integrity units (R396–R421). -/
structure Hub where
  dump : SMap Word
  dumpNumber : Nat
  dumpAt : Nat
  /-- The dump's Ubtur trace stands: no scrub has zeroed it (R425). -/
  traceKept : Bool
  oos : Bool
  leaseHalf : Bool
  leaseHeld : Bool
  leaseEpoch : Nat
  leaseAt : Nat
  hubResetAt : Nat
  units : SMap Nat
  stewards : SMap Stew
  laneUsed : SMap Nat
  /-- Sides of the bridge with a failed lane and no spare left for it (R407). -/
  laneLost : SMap Bool
  laneStopped : SMap Bool
  laneFails : SMap (List Nat)
  /-- Row errors: third corrected error in 24 h (R403), rows marked for substitution, spares used. -/
  rowErrs : SMap (List Nat)
  /-- 1: to be substituted at the next reset; 2: its contents are lost, too (R404). -/
  rowMarked : SMap Nat
  rowSpares : SMap Nat
  scanQ : SMap (List Scan)
  scanRun : SMap (Option Scan)
  /-- The digest that the hub expects of the epoch under way: of every change committed before its start (R420). -/
  digWant : Word
  digEpoch : Nat
  dig0 : Word
  dig1 : Word
  digAgree : Bool
  /-- DEVICE_RESET scheduled: FULL, its command, and once its reply is queued that time and its RSEQ; and running. -/
  resetAsk : Option (Bool × CmdId × Option (Nat × Nat))
  resetting : Option Bool
  deriving DecidableEq, Repr

/-! ### Security -/

structure Sec where
  entropyReady : Bool
  /-- The neighbour-refresh generators have taken their first seed from the source since the hub left reset (R284). -/
  seeded : Bool
  startAt : Option Nat
  fails : Nat
  failed : Bool
  failedAt : Nat
  draws : Nat
  reseedAt : Nat
  ownerKey : Option (Nat × Nat)
  lastCounter : Nat
  /-- Enrolled kin sets: identifier, kin key (R432). -/
  kin : List (Nat × Nat)
  deriving DecidableEq, Repr

/-! ### I3C -/

structure I3c where
  /-- Provisioned identifier by dynamic address (R445). -/
  table : SMap (Option Nat)
  started : Bool
  alone : Bool
  backoff : Nat
  nextTry : Option Nat
  lastAlone : Option Nat
  /-- ENTDAA to run by this time (R446). -/
  scheduled : Option Nat
  deriving DecidableEq, Repr

/-- The whole device but for device time. -/
structure Device where
  aon : Aon
  port : Port
  ev : Events
  pace : PaceSt
  therm : Thermal
  pwr : PowerSt
  fab : Fabric
  arb : Arb
  parts : SMap Part
  ten : Tenant
  mem : Mem
  dram : Dram
  peat : Peat
  cam : Cam
  aud : Audio
  cas : Cascade
  hub : Hub
  sec : Sec
  i3c : SMap I3c
  /-- The model's own counter of free values taken (never the spec's). -/
  freeCount : Nat
  deriving DecidableEq, Repr

/-- The machine: the waiting commands, device time in ns (R9), the device. -/
structure State where
  pending : List Instr
  now : Nat
  dev : Device
  deriving DecidableEq, Repr

/-! ### Reset values -/

/-- Registers of a core after a compute reset (R51): d0 has STRIDE0 1. -/
def Core.init : Core where
  g := []
  d := [(0, 1#128 <<< 48)]
  p := []
  v := []
  acc := []
  sat := []
  satFired := []
  thresh := []
  pool := []
  pc := 0
  run := .halted
  part := false
  entry := 0
  gen := 0
  deadline := 0
  timeHi := 0
  control := false
  staleMsg := 0
  staleKnot := 0
  user0 := 0
  mx := []
  mover := []
  walk := []
  chans := []
  sched := {}
  result := (0, 0)

/-- Every self-timed domain before RUN: not powered, PACE_SET pace 6 (R377). -/
def DomSt.init : DomSt := ⟨0, 6, false, [], none⟩
def RailSt.init : RailSt := ⟨0, 0, 0, none, none, 0, false⟩
def Part.init : Part := ⟨false, 0, 0, false, false, none, [], none, 0, none, [], {}, {}, {}, {}, {}, {}, {}⟩
def CsiSt.init : CsiSt := ⟨false, 0, 0, [], [], []⟩
def Pipe.init : Pipe := ⟨[], none⟩
def I3c.init : I3c := ⟨[], false, false, 1, none, none, none⟩
def SubDram.init : SubDram := ⟨[], 0, [], [], [], [], [], [], none, 0, 0, 0, 0, 0⟩
/-- Training finds what is populated (R273). -/
def HalfDram.init : HalfDram := ⟨[], [], [], none, none, [], 0, 0⟩
def Stew.init : Stew := ⟨false, 0, 0, false, none⟩
def Watch.init : Watch := ⟨[], [], 0, 0⟩

def Tenant.init : Tenant := ⟨.closed, 0, none, [], 0, 0, 0, 0, 0, [], [], [], [], 0, none, false⟩
def Mem.init : Mem := ⟨[], [], [], [], [], [], [], [], [], [], []⟩

/-- The MSI-X table at reset: every vector masked, as the PCIe standard has it (log entry 6). -/
def msixReset : SMap Byte := (List.range 8).map fun n => (16 * n + 12, 1)

def Port.init : Port where
  fifo := []
  stage := []
  arrIdx := 0
  arrHdr := none
  arrSeq := 0
  expSeq := 0
  lastGood := 0xFFFFFFFF
  err := none
  interp := none
  order := []
  replies := []
  rpos := 0
  rlast := none
  rseq := 0
  readData := []
  timeHi := 0
  cause := 0
  mask := 0xFF
  creditThresh := 4096
  msix := msixReset
  msixPend := 0
  msixSent := []
  busMaster := false
  msixMasked := false
  xspiMode := false
  irqLow := false
  epoch := 0
  tags := []

def Events.init : Events := ⟨[], 0, [], 0, none, 0⟩

def Fabric.init : Fabric := ⟨[], [], [], [], [], [], [], [], 0⟩

/-- The board record a production line wrote (R306): magic, version, memory settings at their reset values (R272),
eight targets, a host area of 65,536 pages and an allocation area of 1,048,576 pages; log entry 4. -/
def boardReset : List Word :=
  [0x000000016B0A7D21#64, 0x0000000000100024#64, 0#64, 0x0000000003030303#64, 0x0000000000010000#64,
   0x0000000000100000#64, 0#64, 0x000000008B360E87#64]

def Peat.init : Peat where
  mounted := false
  boots := List.replicate 4 ⟨true, boardReset, true⟩
  board := boardReset
  rejected := []
  allocPages := 1048576
  map := []
  dev := []
  expect := []
  pages := []
  blocks := []
  openBlk := []
  cells := []
  seq := 0
  tail := []
  appended := 0
  committed := 0
  ringUpto := []
  rings := [(0, [⟨0, []⟩]), (2, [⟨0, []⟩])]
  opNext := 0
  queue := []
  busy := []
  windows := []
  lastWindow := []
  waits := []
  poison := []
  rereads := []
  retiredBlocks := 0
  patrolAt := 0
  patrolLpn := 0

def Dram.init : Dram :=
  ⟨0x0000000000100024#64, 0, .r6400, false, none, none, ⟨.x8g16, false, false, 0, 0, 0, 0⟩, 0, false, false, [], [], [], [], none⟩

def Hub.init : Hub where
  dump := []
  dumpNumber := 0
  dumpAt := 0
  traceKept := false
  oos := false
  leaseHalf := false
  leaseHeld := false
  leaseEpoch := 0
  leaseAt := 0
  hubResetAt := 0
  units := []
  stewards := []
  laneUsed := []
  laneLost := []
  laneStopped := []
  laneFails := []
  rowErrs := []
  rowMarked := []
  rowSpares := []
  scanQ := []
  scanRun := []
  digWant := 0
  digEpoch := 0
  dig0 := 0
  dig1 := 0
  digAgree := false
  resetAsk := none
  resetting := none

def Device.init : Device where
  aon := ⟨true, true, true, 0, false, .down, 0, false, false, false, [], [], 0, none, [], false, false⟩
  port := Port.init
  ev := Events.init
  pace := ⟨[], [], [], false, none, none⟩
  therm := ⟨[], [], [], false, none, false⟩
  pwr := ⟨.off, 0, none, none, true, 0, true, 0, true, false, false, none, false, false, false, false, 0xFFFFFFFF, 0⟩
  fab := Fabric.init
  arb := ⟨[], [], 0⟩
  parts := []
  ten := Tenant.init
  mem := Mem.init
  dram := Dram.init
  peat := Peat.init
  cam := ⟨[], [], []⟩
  aud := ⟨[], [], [], false, 0, 0, [], [], []⟩
  cas := ⟨none, none, none, false, [], [], [], [], [], none, false, none, none, none⟩
  hub := Hub.init
  sec := ⟨false, false, none, 0, false, 0, 0, 0, none, 0, []⟩
  i3c := []
  freeCount := 0

/-- The machine right after the always-on domain leaves reset (R9, R458): device time 0, OFF, PORST_N low. -/
def State.reset : State := ⟨[], 0, Device.init⟩

end Sys2Proof.Machine
end

