-- ==== Sys2Proof/Machine/Ops.lean ====
section
/-! DEFINITION. The named operations that commands share: acting on the device, reading and changing its parts, the
fault log, events, interrupt causes and replies. -/

namespace Sys2Proof.Machine

/-- A command's outcome: the device changed by `f`, the queue and device time untouched. -/
def State.act (s : State) (f : Nat → Device → Device) : Host.Outcome State Fault Refusal :=
  .next { s with dev := f s.now s.dev }

/-! ### Parts of the device -/

def Device.core (d : Device) (c : Nat) : Core := d.fab.cores.get Core.init c
def Device.setCore (d : Device) (c : Nat) (k : Core) : Device :=
  { d with fab := { d.fab with cores := d.fab.cores.set Core.init c k } }
def Device.modCore (d : Device) (c : Nat) (f : Core → Core) : Device := d.setCore c (f (d.core c))

def Device.part (d : Device) (p : Nat) : Part := d.parts.get Part.init p
def Device.setPart (d : Device) (p : Nat) (q : Part) : Device := { d with parts := d.parts.set Part.init p q }
def Device.modPart (d : Device) (p : Nat) (f : Part → Part) : Device := d.setPart p (f (d.part p))

def Device.dom (d : Device) (i : Nat) : DomSt := d.pace.doms.get DomSt.init i
def Device.modDom (d : Device) (i : Nat) (f : DomSt → DomSt) : Device :=
  { d with pace := { d.pace with doms := d.pace.doms.modify DomSt.init i f } }
def Device.rail (d : Device) (r : Nat) : RailSt := d.pace.rails.get RailSt.init r
def Device.modRail (d : Device) (r : Nat) (f : RailSt → RailSt) : Device :=
  { d with pace := { d.pace with rails := d.pace.rails.modify RailSt.init r f } }

def Device.lknot (d : Device) (c k : Nat) : Knot := d.fab.lknots.get {} (64 * c + k)
def Device.setLknot (d : Device) (c k : Nat) (x : Knot) : Device :=
  { d with fab := { d.fab with lknots := d.fab.lknots.set {} (64 * c + k) x } }
def Device.gknot (d : Device) (i : Nat) : GKnot := d.fab.gknots.get {} i
def Device.setGknot (d : Device) (i : Nat) (x : GKnot) : Device :=
  { d with fab := { d.fab with gknots := d.fab.gknots.set {} i x } }

/-! ### Partitions and domains (R13, R22, R238) -/

/-- Logical bundle of a logical core (R1, R238). -/
def bundleOf (c : Nat) : Nat := c / 4
/-- Half of a logical core: 0 or 1. -/
def halfOfCore (c : Nat) : Nat := c / 32
/-- The bundles of a bundle mask. -/
def bundlesOf (mask : Nat) : List Nat := (List.range 16).filter fun b => bitOf mask b
/-- The cores of a bundle mask, in logical order. -/
def coresOfMask (mask : Nat) : List Nat := (List.range 64).filter fun c => bitOf mask (bundleOf c)

def Part.cores (q : Part) : List Nat := coresOfMask q.bundles
/-- A partition that is defined holds the bundle. -/
def Part.holds (q : Part) (b : Nat) : Bool := q.defined && bitOf q.bundles b
/-- The partition that holds a core's bundle, if any (R44). -/
def Device.partOf (d : Device) (c : Nat) : Option Nat :=
  (List.range 16).find? fun p => (d.part p).holds (bundleOf c)

/-- The halves a bundle mask occupies. -/
def halvesOfMask (mask : Nat) : List Nat :=
  (if mask % 256 = 0 then [] else [0]) ++ (if mask / 256 % 256 = 0 then [] else [1])

/-- Flags of an allocation (R169). -/
def flagHalf (w : Word) : Bool := w.getLsbD 2
def flagPin (w : Word) : Bool := w.getLsbD 3
def flagWindow (w : Word) : Nat := w.fld 11 4
def flagPlait (w : Word) : Bool := w.getLsbD 12
def flagWriteBack (w : Word) : Bool := w.getLsbD 13
def flagReadOnly (w : Word) : Bool := w.getLsbD 14
def flagScrub (w : Word) : Bool := w.getLsbD 15
def flagCross (w : Word) : Bool := w.getLsbD 16

def Device.alloc? (d : Device) (slot : Nat) : Option Alloc := d.ten.allocs.get none slot
def Device.setAlloc (d : Device) (slot : Nat) (a : Option Alloc) : Device :=
  { d with ten := { d.ten with allocs := d.ten.allocs.set none slot a } }
def Device.modAlloc (d : Device) (slot : Nat) (f : Alloc → Alloc) : Device :=
  { d with ten := { d.ten with allocs := d.ten.allocs.modify none slot (·.map f) } }
def Device.weave? (d : Device) (slot : Nat) : Option Weave := d.ten.weaves.get none slot
def Device.modWeave (d : Device) (slot : Nat) (f : Weave → Weave) : Device :=
  { d with ten := { d.ten with weaves := d.ten.weaves.modify none slot (·.map f) } }

/-- The weave bound to a partition. -/
def Device.boundWeave (d : Device) (p : Nat) : Option Weave := (d.part p).weave.bind d.weave?

/-- The partition's bound weave holds an allocation, planned or attached, with CROSS_HALF. -/
def Device.partCross (d : Device) (p : Nat) : Bool :=
  match d.boundWeave p with
  | none => false
  | some w => (w.planSlots ++ w.attSlots).any fun s => ((d.alloc? s).map fun a => flagCross a.flags).getD false

/-- The self-timed domains a partition uses, in the order of R13 (R22). -/
def Device.partDomains (d : Device) (p : Nat) : List Nat :=
  let q := d.part p
  let bs := bundlesOf q.bundles
  let hs := halvesOfMask q.bundles
  bs ++ ((List.range 4).filter fun m => bs.any fun b => b / 4 == m).map (16 + ·)
    ++ hs.map (20 + ·) ++ hs.flatMap (fun h => rangeFrom (22 + 4 * h) 4)
    ++ (if hs.length == 2 || d.partCross p then [34] else [])

/-- Rail of a self-timed domain: 0 VDD_E, 1 VDD_W, 2 VDD_HUB (R13). -/
def railOf (dom : Nat) : Nat :=
  if dom < 16 then dom / 8
  else if dom < 20 then (dom - 16) / 2
  else if dom < 22 then dom - 20
  else if dom < 30 then (dom - 22) / 4
  else 2

/-- Guaranteed rate of a pace in M steps/s (R14). -/
def paceRate (p : Nat) : Nat := 300 + 150 * p
/-- Minimum voltage of a pace in mV (R14). -/
def paceMv (p : Nat) : Nat := [550, 600, 640, 680, 720, 760, 800, 860].getD p 860
/-- W / rate(p) in ns (R23). -/
def stepsNs (w p : Nat) : Nat := cdiv (w * 1000) (paceRate p)

/-! ### The fault log (R392) -/

/-- Fault codes (R393). -/
def fcIllegal : Nat := 0x0001
def fcAlign : Nat := 0x0002
def fcPoolRange : Nat := 0x0003
def fcAccRange : Nat := 0x0004
def fcDesc : Nat := 0x0005
def fcKnotOverflow : Nat := 0x0006
def fcHandleStale : Nat := 0x0007
def fcPoisonRead : Nat := 0x0008
def fcResultRange : Nat := 0x0009
def fcHoldCut : Nat := 0x000A
def fcWatchdog : Nat := 0x0010
def fcResultFormat : Nat := 0x0011
def fcSlotFailed : Nat := 0x0012
def fcPaceAck : Nat := 0x0013
def fcStewardLost : Nat := 0x0014
def fcBridgeLane : Nat := 0x0015
def fcKnotSlot : Nat := 0x0016
def fcSramRow : Nat := 0x0017
def fcFuseBank : Nat := 0x0018
def fcHubFault : Nat := 0x0019
def fcPartitionOut : Nat := 0x001A
def fcDeviceOut : Nat := 0x001B
def fcLeaseStale : Nat := 0x001C
def fcConfigSkew : Nat := 0x001D
def fcMemPopulation : Nat := 0x0020
def fcRanksetExcluded : Nat := 0x0021
def fcRanksetRetired : Nat := 0x0022
def fcRanksetCeLimit : Nat := 0x0023
def fcSpareLost : Nat := 0x0024
def fcPlaitError : Nat := 0x0025
def fcRetiredListFull : Nat := 0x0026
def fcReserveLost : Nat := 0x0027
def fcNoSteward : Nat := 0x0028
def fcHostAreaSize : Nat := 0x0029
def fcDeviceResetCmd : Nat := 0x002A
def fcPeatUncorrectable : Nat := 0x0030
def fcPeatInterrupted : Nat := 0x0031
def fcFlashRejected : Nat := 0x0032
def fcBootArea : Nat := 0x0033
def fcPeatCapacity : Nat := 0x0034
def fcWeavePageLost : Nat := 0x0035
def fcThermalShutdown : Nat := 0x0040

/-- A record enters the fault log, a ring of 256 (R392). -/
def Device.logFault (d : Device) (now code : Nat) (part : Option Nat) (core : Option Nat) (a b : Nat) : Device :=
  let n := (d.aon.logCount + 1) % 2 ^ 32
  let log := d.aon.log ++ [⟨now, code, part.getD 0xFF, core, n, a, b⟩]
  { d with aon := { d.aon with log := log.drop (log.length - 256), logCount := n } }

/-! ### Events and interrupt causes (R212–R216) -/

/-- A source raises an event (R40). -/
def Device.raise (d : Device) (now source code : Nat) (w2 w3 : Word) : Device :=
  { d with ev := { d.ev with waiting := d.ev.waiting ++ [⟨now, source, code, w2, w3⟩] } }

/-- HOST_IRQ_N is low while (CAUSE AND NOT MASK) ≠ 0 (R216). -/
def Device.irqLevel (d : Device) : Device :=
  { d with port := { d.port with irqLow := decide (d.port.cause &&& ~~~ d.port.mask ≠ 0) } }

/-- A vector can send: neither it nor the function is masked (R216), and Bus Master Enable is set (R191). -/
def Device.vectorOpen (d : Device) (n : Nat) : Bool :=
  d.port.busMaster && !d.port.msixMasked && !bitOf (d.port.msix.get 0 (16 * n + 12)).toNat 0

/-- The vector's message goes out, or waits as a pending bit while masks or Bus Master Enable hold it (R191, R216; log
entry 90). -/
def Device.sendVector (d : Device) (n : Nat) : Device :=
  if d.aon.bootSel then d
  else if !d.vectorOpen n then
    { d with port := { d.port with msixPend := d.port.msixPend ||| (1 <<< n) } }
  else { d with port := { d.port with msixSent := d.port.msixSent ++ [n] } }

/-- A cause bit is set; from 0 to 1 while unmasked it sends its vector's message (R215, R216). -/
def Device.setCause (d : Device) (n : Nat) : Device :=
  let rises := !d.port.cause.getLsbD n && !d.port.mask.getLsbD n
  let d := { d with port := { d.port with cause := d.port.cause ||| (1 <<< n) } }
  (if rises then d.sendVector n else d).irqLevel

def causeReply : Nat := 0
def causeEvent : Nat := 1
def causePort : Nat := 2
def causeCredit : Nat := 3
def causeKnot : Nat := 4
def causeFault : Nat := 5
def causeAlarm : Nat := 6
def causeState : Nat := 7

/-! ### Replies (R209–R211) -/

def stOk : Nat := 0x0000
def stAccepted : Nat := 0x0001
def stRefusedLoad : Nat := 0x0100
def stRefusedState : Nat := 0x0101
def stNotReadyEntropy : Nat := 0x0102
def stFramingLost : Nat := 0x0200
def stCheckFail : Nat := 0x0201
def stSeqGap : Nat := 0x0202
def stFaulted : Nat := 0x0300
def stStateReset : Nat := 0x0301
def stDenied : Nat := 0x0400
def stLate : Nat := 0x0500
def stBadParam : Nat := 0x0600
def stUnknownOpcode : Nat := 0x0601
def stStaleGen : Nat := 0x0700

/-- The words of a reply (R209). -/
def replyWords (id : CmdId) (status time rseq : Nat) (rs : List Word) : List Word :=
  let body := [mkWord [(4 + rs.length, 12), (id.ctx, 32), (id.gen, 40), (id.tag, 44), (id.op, 56)],
    mkWord [(id.seq, 0), (status, 48)], BitVec.ofNat 64 time] ++ rs
  body ++ [mkWord [(packetCrc rseq body, 0), (rseq, 32)]]

/-- Tag slot of a context (R203). -/
def tagKey (ctx tag : Nat) : Nat := 4096 * ctx + tag

/-- A reply enters the reply queue with the next RSEQ and sets the REPLY cause; a reply to a command from before a
port reset is discarded (R192). -/
def Device.reply (d : Device) (id : CmdId) (status time : Nat) (rs : List Word) : Device :=
  if id.epoch = d.port.epoch then
    let ws := replyWords id status time d.port.rseq rs
    { d with port := { d.port with
        replies := d.port.replies ++ [ws], rseq := (d.port.rseq + 1) % 2 ^ 32 } }.setCause causeReply
  else d

/-- The tag is free again. -/
def Device.freeTag (d : Device) (id : CmdId) : Device :=
  { d with port := { d.port with tags := d.port.tags.modify {} (tagKey id.ctx id.tag) fun t => { t with busy := false } } }

/-- Opcodes that ask for work: RUN, DECIDE, STREAM_STEP and SEQ_FEED (R221). -/
def opcodesWork : List Nat := [0x30, 0x38, 0x41, 0x49]

/-- The reply to the DEVICE_RESET that a reset waits for enters the queue (R267). -/
def Device.noteAsk (d : Device) (now : Nat) (id : CmdId) (rseq : Nat) : Device :=
  match d.hub.resetAsk with
  | some ⟨full, of, none⟩ =>
    if of = id then { d with hub := { d.hub with resetAsk := some ⟨full, of, some (now, rseq)⟩ } } else d
  | _ => d

/-- A command is answered: its tag is free, and its final reply enters the queue with TIME now (R210). -/
def Device.complete (d : Device) (now : Nat) (id : CmdId) (status : Nat) (rs : List Word) : Device :=
  ((d.freeTag id).reply id status now rs).noteAsk now id d.port.rseq

/-- The completed replies at the head of `l` enter the queue in order; the rest wait on. -/
def Device.release (d : Device) (now : Nat) : List Turn → Device
  | ⟨id, tagged, some (status, rs)⟩ :: l =>
    (if tagged then d.complete now id status rs else d.reply id status now rs).release now l
  | l => { d with port := { d.port with order := l } }

/-- The entry of a command in the order takes its reply. -/
def fillOrder (id : CmdId) (r : Nat × List Word) : List Turn → List Turn
  | [] => []
  | t :: l => if t = ⟨id, true, none⟩ then ⟨id, true, some r⟩ :: l else t :: fillOrder id r l

/-- The command is one whose reply waits for those of the packets before it. -/
def Device.waitsTurn (d : Device) (id : CmdId) : Bool := d.port.order.contains ⟨id, true, none⟩

/-- The final reply of a command: one that asks no work follows the replies of those before it (R210). -/
def Device.answer (d : Device) (now : Nat) (id : CmdId) (status : Nat) (rs : List Word) : Device :=
  if d.waitsTurn id then d.release now (fillOrder id (status, rs) d.port.order) else d.complete now id status rs

/-- A packet that asks no work takes its place in the order of replies. -/
def Device.enqueue (d : Device) (id : CmdId) : Device :=
  if opcodesWork.contains id.op then d else { d with port := { d.port with order := d.port.order ++ [⟨id, true, none⟩] } }

/-- A packet that checks 1 and 2 of R223 refuse is answered in its turn; no tag is its own. -/
def Device.refusePacket (d : Device) (now : Nat) (id : CmdId) (status : Nat) : Device :=
  if opcodesWork.contains id.op || d.port.order.isEmpty then d.reply id status now []
  else { d with port := { d.port with order := d.port.order ++ [⟨id, false, some (status, [])⟩] } }

/-- REFUSED_LOAD with the earliest due. -/
def Device.refuseLoad (d : Device) (id : CmdId) (earliest : Nat) : Device :=
  (d.freeTag id).reply id stRefusedLoad earliest []

/-- ACCEPTED with the due; the tag stays busy (R210). -/
def Device.accept (d : Device) (id : CmdId) (due : Nat) : Device := d.reply id stAccepted due []

/-! ### Free values -/

/-- The next free value: a word nothing constrains. -/
def Device.freeWord (d : Device) : Word := Config.freeWord d.freeCount
def Device.tookFree (d : Device) : Device := { d with freeCount := d.freeCount + 1 }

/-! ### State bits read by many commands (R196, R215) -/

def Device.supplyAlarm (d : Device) : Bool :=
  d.pace.pfailAlarm || (List.range 3).any fun r => (d.rail r).alarm

/-- READY: Ubtur takes commands (R458). -/
def Device.ready (d : Device) : Bool := d.aon.boot == .done

def Power.num : Power → Nat
  | .run => 0 | .hush => 1 | .listen => 2 | .ember => 3 | .off => 4

/-- POWER_STATE of DEV_STATUS: OFF has no code, and its field reads 0 (R196). -/
def Power.statusCode (p : Power) : Nat := if p = .off then 0 else p.num

def Device.leadHalf (d : Device) : Bool := d.hub.leaseHalf

/-- The power state changes: POWER_STATE of DEV_STATUS and the STATE cause (R215). -/
def Device.setPower (d : Device) (p : Power) : Device :=
  if d.pwr.state = p then d else { d with pwr := { d.pwr with state := p } }.setCause causeState

/-- Device-wide resets within 10 minutes, closed (R400). -/
def Device.devResetCount (d : Device) (now : Nat) : Nat :=
  (d.aon.devResets.filter fun t => decide (now ≤ t + 600000000000)).length

/-- DEV_STATUS (R196). Owner diagnostic mode is the CLOSED state (R422). -/
def Device.devStatus (d : Device) : Word :=
  mkWord [(d.pwr.state.statusCode, 0), (b2n d.ready, 3), (b2n d.sec.entropyReady, 4), (b2n d.hub.oos, 5),
    (b2n d.leadHalf, 6), (b2n d.pwr.onBattery, 7), (b2n d.therm.degrade, 8), (b2n d.supplyAlarm, 9),
    (b2n (d.ten.state != .closed), 10), (b2n (d.ready && d.ten.state == .closed), 11), (b2n d.aon.bootSel, 12)]

/-- A fault of kind D: logged, and DEVICE_FAULT raised (R393, R213). -/
def Device.deviceFault (d : Device) (now code : Nat) (a b : Nat) : Device :=
  (d.logFault now code none none a b).raise now 1 0x0002 (mkWord [(code, 16)])
    (BitVec.ofNat 64 (d.devResetCount now))

/-- The partition word (R238). -/
def Part.word (q : Part) (p : Nat) : Word :=
  mkWord [(p, 0), (q.bundles, 8), (q.pg, 24), (b2n q.compat, 27), (b2n q.oos, 28)]

/-- 32-bit items, two to a word (R220). -/
def packWords : List Nat → List Word
  | [] => []
  | [a] => [mkWord [(a % 2 ^ 32, 0)]]
  | a :: b :: r => mkWord [(a % 2 ^ 32, 0), (b % 2 ^ 32, 32)] :: packWords r

/-! ### Packets (R200, R201) -/

def hdrOp (h : Word) : Nat := h.fld 63 56
def hdrTag (h : Word) : Nat := h.fld 55 44
def hdrGen (h : Word) : Nat := h.fld 43 40
def hdrCtx (h : Word) : Nat := h.fld 39 32
def hdrLen (h : Word) : Nat := h.fld 31 12
def hdrFlags (h : Word) : Nat := h.fld 11 0

/-- The command a header names, with the SEQ its replies carry. -/
def hdrId (h : Word) (seq epoch : Nat) : CmdId := ⟨hdrOp h, hdrTag h, hdrGen h, hdrCtx h, seq, epoch⟩

/-- The check word of a packet: SEQ and CRC (R201). -/
def checkWord (seq : Nat) (ws : List Word) : Word := mkWord [(packetCrc seq ws, 0), (seq, 32)]

/-- The packet that carries these words under SEQ (R200, R201). -/
def sealPacket (seq : Nat) (ws : List Word) : List Word := ws ++ [checkWord seq ws]

def Packet.hdr (p : Packet) : Word := wordAt p.words 0
/-- LENGTH. -/
def Packet.len (p : Packet) : Nat := p.words.length
def Packet.seq (p : Packet) : Nat := (wordAt p.words (p.len - 1)).fld 63 32
def Packet.id (p : Packet) : CmdId := hdrId p.hdr p.seq p.epoch
/-- Parameter and data words: word 2 up to the word before the check word. -/
def Packet.body (p : Packet) : List Word := (p.words.drop 2).take (p.len - 3)
/-- Word `i` of the packet. -/
def Packet.w (p : Packet) (i : Nat) : Word := wordAt p.words i
def Packet.tight (p : Packet) : Bool := p.hdr.getLsbD 0
def Packet.query (p : Packet) : Bool := p.hdr.getLsbD 1

/-- The device's Tj: the highest of the three dies (R379). -/
def Thermal.device (t : Thermal) : Int := max (t.tj.get 0 0) (max (t.tj.get 0 1) (t.tj.get 0 2))

/-- The number whose bit `i` is `f i`, for `i` below `n`. -/
def maskOf (n : Nat) (f : Nat → Bool) : Nat := ((List.range n).map fun i => b2n (f i) * 2 ^ i).sum

/-- Applies `f` for each element in order. -/
def forEach {α : Type} (d : Device) (l : List α) (f : Device → α → Device) : Device := l.foldl f d

end Sys2Proof.Machine
end

