-- ==== Sys2Proof/Machine/Recover.lean ====
section
/-! DEFINITION. Faults of a partition and of the device: the start of a compute reset, the recovery reserve, the dump,
escalation and out of service (R30, R31, R391–R402). -/

namespace Sys2Proof.Machine

def Device.seq (d : Device) (s : Nat) : Seqn := d.ten.seqs.get {} s
def Device.setSeq (d : Device) (s : Nat) (q : Seqn) : Device :=
  { d with ten := { d.ten with seqs := d.ten.seqs.set {} s q } }
def Device.stream? (d : Device) (i : Nat) : Option Stream := d.ten.streams.get none i
def Device.modStream (d : Device) (i : Nat) (f : Stream → Stream) : Device :=
  { d with ten := { d.ten with streams := d.ten.streams.modify none i (·.map f) } }

/-! ### Answering items -/

/-- Every later reservation of a sequence's feed is withdrawn; an undispatched step item left empty goes (R151, R161). -/
def withdrawFeed (items : List Item) (slot : Nat) : List Item :=
  (items.map fun it =>
    if it.kind = .serve then { it with members := it.members.filter fun m => m.key ≠ slot } else it).filter
    fun it => !(it.kind == .serve && it.members.isEmpty)

/-- Word 3 onward of a SEQ_FEED reply (R253). -/
def feedResult (tokens : List Nat) (cancelled : Bool) : List Word :=
  mkWord [(tokens.length, 0), (b2n cancelled, 63)] :: packWords tokens

/-- A feed ends with `status` (R151, R161): its reply carries the tokens committed, and PHASE becomes IDLE. -/
def Device.endFeed (d : Device) (now p slot status : Nat) (cancelled : Bool) : Device :=
  let q := d.seq slot
  match q.feed with
  | none => d
  | some id =>
    let d := d.modPart p fun r => { r with items := withdrawFeed r.items slot }
    let d := d.answer now id status (feedResult q.tokens cancelled)
    d.setSeq slot { q with phase := 1, promptLeft := 0, genLeft := 0, feed := none, prompt := [], tokens := [],
                           cancelled := false }

/-- An item is answered FAULTED: every member of a run, every feed of a step item (R30, R161). -/
def Device.faultItem (d : Device) (now p : Nat) (it : Item) : Device :=
  match it.kind with
  | .serve => forEach d it.members fun d m => d.endFeed now p m.key stFaulted false
  | _ => forEach d it.members fun d m => d.answer now m.id stFaulted []

/-- Every unanswered item of a partition, the running one first. -/
def Part.allItems (q : Part) : List Item := (q.running.map (·.item)).toList ++ q.items

/-- Every unanswered command of the partition is answered FAULTED (R31). -/
def Device.faultAllItems (d : Device) (now p : Nat) : Device :=
  let its := (d.part p).allItems
  let d := d.modPart p fun q => { q with items := [], running := none }
  forEach d its fun d it => d.faultItem now p it

/-! ### The dump (R396–R399) -/

/-- The order of R28: due, then admission number. -/
def Item.before (j k : Item) : Bool := j.d < k.d || (j.d == k.d && j.seq ≤ k.seq)

/-- Items put in the order of R28. -/
def insertItem (it : Item) : List Item → List Item
  | [] => [it]
  | j :: r => if j.before it then j :: insertItem it r else it :: j :: r

def CoreRun.dumpState : CoreRun → Bool → Nat
  | .halted, part => if part then 0 else 7
  | .running, _ => 1
  | .waitKnot _ _ _, _ => 2
  | .waitMx, _ => 3
  | .waitMover, _ => 4
  | .waitSend, _ => 5
  | .faulted, _ => 6

def d128Words (x : BitVec 128) : List Word := [x.extractLsb' 0 64, x.extractLsb' 64 64]

/-- PREDICATES with p0 in the lowest bit; p0 reads true. -/
def Core.predBits (k : Core) : Nat :=
  1 + ((List.range 7).map fun i => b2n (k.p.get false (i + 1)) * 2 ^ (i + 1)).sum

/-- A page-mover entry as a descriptor of R74; records of a schedule that move no pool data show as zero words. -/
def MoverEntry.words (e : MoverEntry) : List Word :=
  let k := match e.kind with | .copy => some 0 | .gather => some 1 | .scatter => some 2 | .fillZero => some 3 | _ => none
  match k with
  | none => [0, 0, 0, 0]
  | some k => [mkWord [(e.src, 0), (k, 48), (b2n e.doneEn, 52), (e.doneKnot, 53)], BitVec.ofNat 64 e.dst,
      BitVec.ofNat 64 e.len, BitVec.ofNat 64 e.delta]

/-- A core record (R399). -/
def Core.dumpWords (k : Core) : List Word :=
  let knot := match k.run with | .waitKnot n _ _ => n.toNat | _ => 0
  let pair (m : SMap W32) (i : Nat) : Word := mkWord [((m.get 0 (2 * i)).toNat, 0), ((m.get 0 (2 * i + 1)).toNat, 32)]
  [mkWord [(k.pc % 2 ^ 22, 0), (k.run.dumpState k.part, 24), (knot, 32)],
    mkWord [(k.gen % 256, 0), (k.predBits, 8), (k.entry % 2 ^ 16, 16)]]
  ++ (List.range 16).map (pair k.g) ++ (List.range 16).flatMap (fun i => d128Words (k.d.get 0 i))
  ++ (List.range 8).map (pair k.sat)
  ++ (match k.mx with | [] => [0, 0, 0, 0] | j :: _ => d128Words j.lo ++ d128Words j.hi)
  ++ [mkWord [(k.mx.length, 0), (k.mover.length, 16), (k.staleMsg, 32)],
    mkWord ((List.range 16).map fun n => (b2n (decide ((k.chans.get {} n).flits ≠ 0)), n))]
  ++ (List.range 16).flatMap fun i => ((k.mover[i]?).map MoverEntry.words).getD [0, 0, 0, 0]

/-- A demand-item record (R397). -/
def Item.dumpWords (it : Item) (running : Bool) : List Word :=
  let id : CmdId := (it.members.head?.map (·.id)).getD ⟨0, 0, 0, 0, 0, 0⟩
  [BitVec.ofNat 64 it.d, BitVec.ofNat 64 it.c,
    mkWord [(id.ctx, 0), (id.tag, 8), (id.gen, 20), (id.op, 24), (b2n running, 32), (b2n it.exposed, 33), (b2n it.tight, 34)],
    mkWord [(it.members.length, 0), (it.entry, 16), (it.seq % 2 ^ 32, 32)]]

/-- A fault-log record (R392). -/
def LogRec.words (r : LogRec) : List Word :=
  [BitVec.ofNat 64 r.time,
    mkWord [(r.code, 0), (r.part, 16), (r.core.getD 0, 24), (b2n r.core.isSome, 31), (r.number, 32)],
    BitVec.ofNat 64 r.a, BitVec.ofNat 64 r.b]

/-- Ports of a site (R39). -/
def sitePorts : Site → Nat
  | .meshRouter => 4 | .halfSpine => 7 | .mereSlice => 11 | .memPort => 13 | .flashChannel => 4 | .bridge => 3
  | .hubEvent => 8
/-- Instances of a site: router outputs of 16 routers towards four ports each, half spines of seven, slices, ports. -/
def siteInstances : Site → Nat
  | .meshRouter => 64 | .halfSpine => 14 | .mereSlice => 8 | .memPort => 12 | .flashChannel => 4 | .bridge => 1
  | .hubEvent => 1
def siteAll : List Site := [.meshRouter, .halfSpine, .mereSlice, .memPort, .flashChannel, .bridge, .hubEvent]

/-- The arbiter words of the dump (R397); an event that waits is a request at its source's port, of the time it was raised. -/
def Device.arbWords (d : Device) : List Word :=
  siteAll.flatMap fun st => (List.range (siteInstances st)).flatMap fun i => (List.range (sitePorts st)).map fun p =>
    let rq :=
      if st = .hubEvent then (d.ev.waiting.find? fun e => e.source == p + 1).map fun e => e.time / 16 % 2 ^ 32
      else (d.arb.reqs.find? fun r => r.site == st && r.inst == i && r.port == p).map (·.lst)
    let hd := d.arb.holders.find? fun h => h.site == st && h.inst == i && h.port == p
    mkWord [(b2n rq.isSome, 0), (b2n hd.isSome, 1), (rq.getD 0, 32)]

def Knot.dumpWord (k : Knot) (waiter : Bool) : Word := mkWord [(k.count, 0), (k.gen, 32), (b2n waiter, 48)]
def GKnot.dumpWord (k : GKnot) : Word :=
  mkWord [(k.count, 0), (k.gen, 32), (k.owner.getD 0, 48), (b2n k.arm.isSome, 52), (b2n k.spare, 53), (b2n k.owner.isSome, 54)]

/-- Numbered words from `at_`, the zero ones left out. -/
def numbered (at_ : Nat) (ws : List Word) : SMap Word :=
  ((rangeFrom at_ ws.length).zip ws).filter fun e => e.2 ≠ 0

/-- A core waits on local knot `k` of core `c`. -/
def Device.hasWaiter (d : Device) (c k : Nat) : Bool :=
  d.fab.cores.any fun e => match e.2.run with
    | .waitKnot n _ _ => n.toNat / 2 ^ 16 == 64 * c + k
    | _ => false

/-- The dump's frozen sections (R397): header, items, cores, knots, arbiters. The fault log is read live and the Ubtur
trace is the device's own. -/
def Device.buildDump (d : Device) (now : Nat) (p : Option Nat) (trigger : LogRec) : SMap Word :=
  let q := d.part (p.getD 16)
  let cores := match p with | none => [] | some _ => q.cores
  let hdr := [mkWord [(0xD0A78840, 0), (1, 32)], BitVec.ofNat 64 (d.hub.dumpNumber + 1), BitVec.ofNat 64 now,
    mkWord [((wordAt trigger.words 1).toNat % 2 ^ 32, 0), (trigger.a % 2 ^ 32, 32)],
    mkWord [(b2n d.hub.leaseHalf, 0), (d.hub.leaseEpoch, 16)],
    mkWord [((q.resetTimes.filter fun t => decide (now ≤ t + 60000000000)).length, 0), (d.devResetCount now, 8)],
    d.devStatus, if p.isSome then q.word (p.getD 0) else 0]
  let items := (q.running.map fun r => r.item.dumpWords true).getD []
    ++ (q.items.foldl (fun l i => insertItem i l) []).flatMap fun i => i.dumpWords false
  numbered 0 hdr ++ numbered 1088 (items.take 4096)
    ++ cores.flatMap (fun c => numbered (5184 + 128 * c) (d.core c).dumpWords)
    ++ cores.flatMap (fun c => numbered (13376 + 64 * c)
        ((List.range 64).map fun k => (d.lknot c k).dumpWord (d.hasWaiter c k)))
    ++ (d.fab.gknots.map fun e => (17472 + e.1, e.2.dumpWord)).filter (fun e => e.2 ≠ 0)
    ++ numbered 21568 (d.arbWords.take 1024)

/-- A dump replaces the previous one (R396). -/
def Device.collectDump (d : Device) (now : Nat) (p : Option Nat) (trigger : LogRec) : Device :=
  { d with hub := { d.hub with
      dump := d.buildDump now p trigger, dumpNumber := d.hub.dumpNumber + 1, dumpAt := now, traceKept := true } }

/-- The newest record of the fault log. -/
def Device.lastLog (d : Device) : LogRec := d.aon.log.getLast?.getD ⟨0, 0, 0xFF, none, 0, 0, 0⟩

/-! ### The compute reset (R395) -/

/-- Length of a compute reset in ns; a reset charged to STEWARD_LOST omits the slot test. -/
def resetNs (noSlotTest : Bool) : Nat := if noSlotTest then 1200000 else 2500000

/-- A core stops: its array, page mover and schedule engine are abandoned. -/
def Core.stop (k : Core) : Core :=
  { k with run := if k.run = .faulted then .faulted else .halted, mx := [], mover := [], walk := [], sched := {} }

/-- The members of the running item that met a cause of R32 since their admission are answered FAULTED as their run faults
(R32). -/
def Device.dropCaused (d : Device) (now p : Nat) : Device :=
  match (d.part p).running with
  | none => d
  | some r =>
    let hit := r.item.members.filter (·.cause)
    let rest := r.item.members.filter (!·.cause)
    if hit.isEmpty then d
    else
      let left := if rest.isEmpty then none else some { r with item := { r.item with members := rest } }
      (d.modPart p fun q => { q with running := left }).faultItem now p { r.item with members := hit }

/-- The recovery reserve at a compute reset (R30): exposed items are answered FAULTED, the others become exposed. -/
def Device.spendReserves (d : Device) (now p : Nat) : Device × Nat :=
  let its := (d.part p).allItems
  let keep := its.filter fun i => !i.exposed
  let gone := its.filter fun i => i.exposed
  let d := d.modPart p fun q =>
    { q with items := keep.map fun i => { i with exposed := true, spent := true }, running := none }
  (forEach d gone fun d it => d.faultItem now p it, keep.length)

/-- A request that a compute reset leaves raised: messages in flight are left to die by their generation (R395), and a fill of a
mere, which the reset does not touch, may serve others. -/
def Xfer.outlives : Xfer → Bool
  | .msg _ | .fill _ _ | .peatRead _ | .landing => true
  | _ => false

/-- A compute reset of partition `p` begins, or the one that runs is joined (R395). -/
def Device.startReset (d : Device) (now p : Nat) (noSlotTest : Bool) : Device :=
  match (d.part p).reset with
  | some _ => d
  | none =>
    let d := forEach d (d.part p).cores fun d c => d.modCore c Core.stop
    let d := { d with arb := { d.arb with
      reqs := d.arb.reqs.filter fun r => r.job.part != some p || r.job.what.outlives
      holders := d.arb.holders.filter fun h => h.job.part != some p } }
    let (d, n) := d.spendReserves now p
    d.modPart p fun q => { q with reset := some ⟨now, noSlotTest, n, []⟩ }

/-- The partition goes out of service (R31, R400). -/
def Device.partitionOut (d : Device) (now p n : Nat) : Device :=
  let d := d.modPart p fun q => { q with oos := true }
  let d := d.faultAllItems now p
  d.deviceFault now fcPartitionOut p n

/-- Counted resets of a partition within 60 s, closed (R400). -/
def Part.resetCount (q : Part) (now : Nat) : Nat := (q.resetTimes.filter fun t => decide (now ≤ t + 60000000000)).length

/-- Teardown of the faulting item's context in a compatibility partition (R402). -/
def Device.tearDown (d : Device) (now p : Nat) : Device :=
  let q := d.part p
  match q.running with
  | none => d
  | some r =>
    if !q.compat then d
    else
      let ctx := (r.item.members.head?.map (·.id.ctx)).getD 0
      let mine (it : Item) : Bool := it.members.any fun m => m.id.ctx == ctx
      let gone := q.allItems.filter mine
      let d := d.modPart p fun q =>
        { q with items := q.items.filter (fun i => !mine i), running := if mine r.item then none else q.running }
      forEach d gone fun d it => d.faultItem now p it

/-- A fault of kind P of partition `p` (R393): logged, PARTITION_FAULT raised, and a compute reset started with its dump
and its escalation count, or joined. `ofItem`: the fault belongs to the running item (R402). -/
def Device.partFault (d : Device) (now p code : Nat) (core : Option Nat) (pc a b : Nat) (noSlotTest ofItem : Bool) :
    Device :=
  let d := d.logFault now code (some p) core a b
  let d := d.raise now 1 0x0001 (mkWord [(p, 0), (code, 16)]) (mkWord [(core.getD 0, 0), (pc, 32)])
  match (d.part p).reset with
  | some _ => d
  | none =>
    let d := d.modPart p fun q => { q with resetTimes := q.resetTimes ++ [now] }
    let d := d.collectDump now (some p) d.lastLog
    let d := if ofItem then d.tearDown now p else d
    let d := d.dropCaused now p
    let d := d.startReset now p noSlotTest
    let n := (d.part p).resetCount now
    if 3 ≤ n && !(d.part p).oos then d.partitionOut now p n else d

/-! ### Faults of a core (R57) -/

/-- A Tier 1 run ends without HALT: it counts as done, and WAKE tier 1 is raised with the cause (R365, R369). -/
def Device.stopTier1 (d : Device) (now cause : Nat) : Device :=
  let d := forEach d [0, 1, 2, 3] fun d c => d.modCore c fun k => { k.stop with run := .halted }
  let d := d.raise now 5 0x0040 (mkWord [(1, 0), (cause, 8)]) 0
  { d with cas := { d.cas with tier1 := none, linger := if d.cas.raised then some now else none } }

/-- Core `c` raises a fault of R57 at its program offset; `a` is the device address concerned, or 0. -/
def Device.coreFault (d : Device) (now c code a : Nat) : Device :=
  let pc := (d.core c).pc
  let d := d.modCore c fun k => { k with run := .faulted }
  match d.partOf c with
  | some p => d.partFault now p code (some c) pc pc a false true
  | none =>
    let d := d.logFault now code none (some c) pc a
    if d.cas.tier1.isSome && decide (c < 4) then d.stopTier1 now 0xF2 else d

/-! ### Out of service (R401) -/

/-- Commands that wait for something other than a partition's work. -/
def Device.waitingIds (d : Device) : List CmdId :=
  (d.port.interp.map Packet.id).toList ++ d.pace.waits.map (·.id) ++ (d.pwr.trans.bind (·.id)).toList ++ d.ten.scrubId.toList
    ++ d.ten.allocs.flatMap (fun e => match e.2 with
        | none => []
        | some a => (a.migrating.map (·.2)).toList ++ a.flushes.map (·.2) ++ a.freeing.toList)
    ++ d.peat.waits.map (·.id) ++ d.cam.waits.filterMap (·.id) ++ d.aud.waits.filterMap (·.id)
    ++ d.hub.scanQ.flatMap (fun e => e.2.map (·.id)) ++ d.hub.scanRun.flatMap (fun e => (e.2.map (·.id)).toList)
    ++ d.parts.flatMap (fun e => (e.2.reset.map (·.waits)).getD [])

/-- Nothing waits any more. -/
def Device.clearWaits (d : Device) : Device :=
  { d with
    port := { d.port with interp := none }
    pace := { d.pace with waits := [] }
    pwr := { d.pwr with trans := d.pwr.trans.map fun t => { t with id := none } }
    ten := { d.ten with
      scrubId := none
      allocs := d.ten.allocs.map fun e => (e.1, e.2.map fun a => { a with migrating := none, flushes := [], freeing := none }) }
    peat := { d.peat with waits := [] }
    cam := { d.cam with waits := d.cam.waits.filter (·.id.isNone) }
    aud := { d.aud with waits := d.aud.waits.filter (·.id.isNone) }
    hub := { d.hub with scanQ := [], scanRun := [] }
    parts := d.parts.map fun e => (e.1, { e.2 with reset := e.2.reset.map fun r => { r with waits := [] } }) }

/-- The device goes out of service (R401): DEVICE_OUT with the code that decided it, every unanswered command
FAULTED, DRAM in self-refresh, the stewards stopped. -/
def Device.deviceOut (d : Device) (now cause : Nat) : Device :=
  if d.hub.oos then d
  else
    let d := d.deviceFault now fcDeviceOut cause 0
    let ids := d.waitingIds
    let d := forEach d (List.range 16) fun d p => d.faultAllItems now p
    let d := forEach d ids fun d id => d.answer now id stFaulted []
    let d := d.clearWaits
    { d with hub := { d.hub with oos := true }, dram := { d.dram with selfRefresh := true, refreshFrom := now } }.setCause causeState

end Sys2Proof.Machine
end

