-- ==== Sys2Proof/Machine/Operands.lean ====
section
/-! DEFINITION. What every instruction of a core shares (R48–R57): registers, the guard, the next instruction, and the
element of an address descriptor. -/

namespace Sys2Proof.Machine

/-- Bytes of a pool (R50). -/
def poolBytes : Nat := 0x300000

/-! ### Registers (R48) -/

def Core.rg (k : Core) (i : BitVec 5) : W32 := k.g.get 0 i.toNat
def Core.wg (k : Core) (i : BitVec 5) (v : W32) : Core := { k with g := k.g.set 0 i.toNat v }
/-- p0 always reads true. -/
def Core.rp (k : Core) (i : BitVec 3) : Bool := if i = 0 then true else k.p.get false i.toNat
/-- A write to p0 is ignored. -/
def Core.wp (k : Core) (i : BitVec 3) (v : Bool) : Core :=
  if i = 0 then k else { k with p := k.p.set false i.toNat v }
def Core.rd (k : Core) (i : Nat) : BitVec 128 := k.d.get 0 i
def Core.wd (k : Core) (i : Nat) (v : BitVec 128) : Core := { k with d := k.d.set 0 i v }
def Core.rv (k : Core) (i : BitVec 5) : BitVec 2048 := k.v.get 0 i.toNat
def Core.wv (k : Core) (i : BitVec 5) (v : BitVec 2048) : Core := { k with v := k.v.set 0 i.toNat v }

/-- The core goes to a program offset and runs. -/
def Core.goto (k : Core) (pc : Nat) : Core := { k with pc := pc, run := .running }
/-- The core goes to its next instruction. -/
def Core.next (k : Core) : Core := k.goto ((k.pc + 4) % 2 ^ 32)
/-- The core stays at this instruction, waiting. -/
def Core.stall (k : Core) (r : CoreRun) : Core := { k with run := r }

/-- The core is executing its program: started, not halted and not stopped by a fault. -/
def Core.active (k : Core) : Bool := decide (k.run ≠ .halted) && decide (k.run ≠ .faulted)

/-- The guard lets the instruction execute (R53). -/
def Core.guardOk (k : Core) (g : Guard) : Bool := k.rp g.pred != g.neg

/-- An instruction of core `c`: a core that is not running executes none; an offset outside the pool cannot be fetched
(POOL_RANGE, R50); a guard that fails only goes on (R53); otherwise `f`. -/
def instr (c : CoreId) (g : Guard) (s : State) (f : Nat → Device → Device) : Host.Outcome State Fault Refusal :=
  s.act fun now d =>
    let k := d.core c.toNat
    if !k.active then d
    else if poolBytes ≤ k.pc then d.coreFault now c.toNat fcPoolRange k.pc
    else if !k.guardOk g then d.setCore c.toNat k.next
    else f now d

/-- An instruction whose reserved fields must be zero (`ok`), or it raises ILLEGAL_INSTR (R55), and that changes only its
core. -/
def coreInstr (c : CoreId) (g : Guard) (s : State) (ok : Bool) (f : Core → Core) : Host.Outcome State Fault Refusal :=
  instr c g s fun now d =>
    if ok then d.modCore c.toNat f else d.coreFault now c.toNat fcIllegal 0

/-! ### Address descriptors (R49, R50) -/

def descBase (x : BitVec 128) : Nat := (x.extractLsb' 0 48).toNat
def descStride0 (x : BitVec 128) : Int := (x.extractLsb' 48 24).toInt
def descCount0 (x : BitVec 128) : Nat := (x.extractLsb' 72 16).toNat
def descStride1 (x : BitVec 128) : Int := (x.extractLsb' 88 24).toInt
def descCount1 (x : BitVec 128) : Nat := (x.extractLsb' 112 16).toNat

/-- The exact address of element (i, j): BASE + i × STRIDE0 + j × STRIDE1 (R49). -/
def elementAddr (x : BitVec 128) (i j : Nat) : Int :=
  descBase x + i * descStride0 x + j * descStride1 x

/-- An index is below its count, or the count is zero. -/
def indexOk (count i : Nat) : Bool := count == 0 || decide (i < count)

/-- The own-pool range of element (i, j), `n` bytes from the answer; none where POOL_RANGE is raised: an index at or
above a non-zero count, a space other than the own pool, or bytes outside the pool (R49, R50). -/
def element (x : BitVec 128) (i j n : Nat) : Option Nat :=
  let a := elementAddr x i j
  if indexOk (descCount0 x) i && indexOk (descCount1 x) j && decide (descBase x < 2 ^ 46)
      && decide (0 ≤ a) && decide (a + n ≤ poolBytes) then some a.toNat else none

/-- The device address of an element as the fault log shows it. -/
def elementLog (x : BitVec 128) (i j : Nat) : Nat := (elementAddr x i j % 2 ^ 48).toNat

end Sys2Proof.Machine
end

