-- ==== Sys2Proof/Machine/Knot.lean ====
section
/-! DEFINITION. Knots and their five operations (R70–R73). -/

namespace Sys2Proof.Machine

def nmRsv (n : W32) : Bool := n.extractLsb' 29 3 != 0
def nmGlobal (n : W32) : Bool := n.getLsbD 28
def nmIndex (n : W32) : Nat := (n.extractLsb' 16 12).toNat
def nmGen (n : W32) : Nat := (n.extractLsb' 0 16).toNat
/-- The core of a local name (R70). -/
def nmCore (n : W32) : Nat := nmIndex n / 64
def nmKnot (n : W32) : Nat := nmIndex n % 64
/-- Two names of one knot. -/
def sameKnot (m n : W32) : Bool := nmGlobal m == nmGlobal n && nmIndex m == nmIndex n

/-- Two cores of the same partition; outside any partition, of the same bundle. -/
def Device.samePart (d : Device) (c e : Nat) : Bool :=
  match d.partOf c, d.partOf e with
  | some p, some q => p == q
  | none, none => bundleOf c == bundleOf e
  | _, _ => false

/-- The name is legal for core `c`: reserved bits zero, and a local knot's core in its partition (R71). -/
def Device.nameOk (d : Device) (c : Nat) (n : W32) : Bool :=
  !nmRsv n && (nmGlobal n || d.samePart c (nmCore n))

def Ctr.bump (t : Ctr) (now k : Nat) : Ctr :=
  if now / 1000000 = t.ms then { t with n := t.n + k } else ⟨t.n + k, now / 1000000, t.n⟩

/-- A stale operation is counted: at the knot's core, or in the issuing partition (R71). -/
def Device.countStale (d : Device) (now c : Nat) (n : W32) : Device :=
  if nmGlobal n then
    match d.partOf c with
    | none => d
    | some p => d.modPart p fun q => { q with staleKnot := q.staleKnot.bump now 1 }
  else d.modCore (nmCore n) fun k => { k with staleKnot := (k.staleKnot + 1) % 2 ^ 32 }

/-- Count and generation of the knot a name names; none for a global knot that no bound weave owns (R71). -/
def Device.knotOf (d : Device) (n : W32) : Option (Nat × Nat) :=
  if nmGlobal n then
    let k := d.gknot (nmIndex n)
    if k.owner.isSome && !k.withdrawn then some (k.count, k.gen) else none
  else let k := d.lknot (nmCore n) (nmKnot n); some (k.count, k.gen)

/-- The knot's count when the name's generation is the knot's; none is stale. -/
def Device.liveCount (d : Device) (n : W32) : Option Nat :=
  (d.knotOf n).bind fun k => if k.2 = nmGen n then some k.1 else none

def Device.setCount (d : Device) (n : W32) (v : Nat) : Device :=
  if nmGlobal n then d.setGknot (nmIndex n) { d.gknot (nmIndex n) with count := v }
  else d.setLknot (nmCore n) (nmKnot n) { d.lknot (nmCore n) (nmKnot n) with count := v }

/-- An armed global knot whose count has reached its target fires and is disarmed (R71). -/
def Device.fire (d : Device) (now : Nat) (n : W32) : Device :=
  if !nmGlobal n then d
  else
    let k := d.gknot (nmIndex n)
    match k.arm with
    | none => d
    | some t =>
      if t ≤ k.count then
        (d.setGknot (nmIndex n) { k with arm := none }).raise now 4 0x0030
          (mkWord [(k.gen, 0), (nmIndex n, 16), (1, 28)]) (mkWord [(k.count, 0)])
      else d

/-- A core that waits at a KWAIT goes on: with true once the count has reached its target, with false once the generation has
changed (R71, R72). -/
def Device.woken (d : Device) (k : Core) : Core :=
  match k.run with
  | .waitKnot n target pred =>
    match d.liveCount n with
    | none => (k.wp pred false).next
    | some v => if target ≤ v then (k.wp pred true).next else k
  | _ => k

/-- A count or a generation has changed: the waiters that this releases go on. -/
def Device.wakeCores (d : Device) : Device :=
  { d with fab := { d.fab with cores := d.fab.cores.mapV Core.init d.woken } }

/-- A knot's count rises by `v` for core `c`, or KNOT_OVERFLOW (R71). -/
def Device.addCount (d : Device) (now c : Nat) (n : W32) (v : Nat) : Device :=
  match d.knotOf n with
  | none => d
  | some k =>
    if 2 ^ 32 ≤ k.1 + v then d.coreFault now c fcKnotOverflow 0
    else ((d.setCount n (k.1 + v)).fire now n).wakeCores

/-- The local knot `k` of core `c` in its present generation. -/
def Device.localName (d : Device) (c k : Nat) : W32 := BitVec.ofNat 32 ((64 * c + k) * 2 ^ 16 + (d.lknot c k).gen)

/-- A unit of core `c` signals the core's own local knot `k` by 1. -/
def Device.signalOwn (d : Device) (now c k : Nat) : Device := d.addCount now c (d.localName c k) 1

/-- An operation of core `c` on the same knot is still on its way (R73). -/
def Device.postedTo (d : Device) (c : Nat) (n : W32) : Bool :=
  d.fab.knotOps.any fun o => o.core == c && sameKnot o.name n

/-- KSIG and KARM are posted (R73). -/
def postKnot (c : CoreId) (g : Guard) (o : KnotOps) (s : State) (arm : Bool) : Host.Outcome State Fault Refusal :=
  instr c g s fun now d =>
    let k := d.core c.toNat
    let n := k.rg o.name
    if o.rsv ≠ 0 || !d.nameOk c.toNat n || (arm && !nmGlobal n) then d.coreFault now c.toNat fcIllegal 0
    else
      let op : KnotOp := ⟨c.toNat, n, (k.rg o.val).toNat, arm⟩
      let d := { d with fab := { d.fab with knotOps := d.fab.knotOps ++ [op] } }
      d.modCore c.toNat Core.next

/-- KSIG (R71). -/
def execKsig (c : CoreId) (g : Guard) (o : KnotOps) (s : State) : Host.Outcome State Fault Refusal :=
  postKnot c g o s false

/-- KARM: global knots only (R71). -/
def execKarm (c : CoreId) (g : Guard) (o : KnotOps) (s : State) : Host.Outcome State Fault Refusal :=
  postKnot c g o s true

/-- KWAIT (R71): stalls until the count reaches g[gVAL]; a generation that differs at issue sets p[PRED] false. What changes
the knot releases the core (R72), so a KWAIT that waits already waits on. -/
def execKwait (c : CoreId) (g : Guard) (o : KnotOps) (s : State) : Host.Outcome State Fault Refusal :=
  instr c g s fun now d =>
    let k := d.core c.toNat
    let n := k.rg o.name
    if o.rsv ≠ 0 || !d.nameOk c.toNat n then d.coreFault now c.toNat fcIllegal 0
    else match d.liveCount n with
      | none => (d.countStale now c.toNat n).modCore c.toNat fun k => (k.wp o.pred false).next
      | some v =>
        if (k.rg o.val).toNat ≤ v then d.modCore c.toNat fun k => (k.wp o.pred true).next
        else d.modCore c.toNat fun k => k.stall (.waitKnot n (k.rg o.val).toNat o.pred)

/-- The core may initialise the knot: its own local knot, or a global knot of its partition (R71). -/
def Device.mayInit (d : Device) (c : Nat) (n : W32) : Bool :=
  if nmGlobal n then
    match (d.gknot (nmIndex n)).owner with
    | none => true
    | some p => d.partOf c == some p
  else nmCore n == c

/-- KINIT (R71): it waits for the core's earlier operations on the knot (R73); the waiters are released with false. DESIGN
CHOICE (log entry 98): an arm stands, and fires under the new generation. -/
def execKinit (c : CoreId) (g : Guard) (o : KnotOps) (s : State) : Host.Outcome State Fault Refusal :=
  instr c g s fun now d =>
    let k := d.core c.toNat
    let n := k.rg o.name
    if o.rsv ≠ 0 || !d.nameOk c.toNat n || !d.mayInit c.toNat n then d.coreFault now c.toNat fcIllegal 0
    else if d.postedTo c.toNat n then d
    else match d.liveCount n with
      | none => (d.countStale now c.toNat n).modCore c.toNat Core.next
      | some _ =>
        let gen := (nmGen n + 1) % 2 ^ 16
        let v := (k.rg o.val).toNat
        let d := if nmGlobal n then d.setGknot (nmIndex n) { d.gknot (nmIndex n) with count := v, gen := gen }
          else d.setLknot (nmCore n) (nmKnot n) ⟨v, gen⟩
        let d := d.modCore c.toNat fun k =>
          (k.wg o.name (BitVec.ofNat 32 (n.toNat / 2 ^ 16 * 2 ^ 16 + gen))).next
        (d.fire now n).wakeCores

/-- KRD (R71): it waits for the core's earlier operations on the knot (R73). -/
def execKrd (c : CoreId) (g : Guard) (o : KnotOps) (s : State) : Host.Outcome State Fault Refusal :=
  instr c g s fun now d =>
    let n := (d.core c.toNat).rg o.name
    if o.rsv ≠ 0 || !d.nameOk c.toNat n then d.coreFault now c.toNat fcIllegal 0
    else if d.postedTo c.toNat n then d
    else match d.liveCount n with
      | none => (d.countStale now c.toNat n).modCore c.toNat fun k => (k.wg o.val 0xFFFFFFFF).next
      | some v => d.modCore c.toNat fun k => (k.wg o.val (BitVec.ofNat 32 v)).next

/-- An earlier operation of the same core is on its way to the same knot. -/
def notFirst (ops : List KnotOp) (i : Nat) (o : KnotOp) : Bool :=
  (ops.take i).any fun e => e.core == o.core && sameKnot e.name o.name

/-- KNOT_OP_APPLY: the knot applies the `i`-th operation on its way, if no earlier one of its core to that knot is
(R72, R73). -/
def execKnotOpApply (i : Nat) (s : State) : Host.Outcome State Fault Refusal :=
  s.act fun now d =>
    match d.fab.knotOps[i]? with
    | none => d
    | some o =>
      if notFirst d.fab.knotOps i o then d
      else
        let d := { d with fab := { d.fab with knotOps := d.fab.knotOps.eraseIdx i } }
        match d.liveCount o.name with
        | none => d.countStale now o.core o.name
        | some _ =>
          if o.arm then
            (d.setGknot (nmIndex o.name) { d.gknot (nmIndex o.name) with arm := some o.val }).fire now o.name
          else d.addCount now o.core o.name o.val

end Sys2Proof.Machine
end

