-- ==== Sys2Proof/Machine/Plait.lean ====
section
/-! DEFINITION. The plait page (R183–R190): its image, the checks of its index and blocks, decoding, and the device's own
encoder. -/

namespace Sys2Proof.Machine

/-- Bytes of a block, and blocks of a page. -/
def plaitBlockBytes : Nat := 256
def plaitBlocks : Nat := 256
/-- Bytes before the payloads (R184). -/
def plaitHead : Nat := 528

/-- Byte `i` of a byte string, or 0 beyond it. -/
def byteAt (bs : List Byte) (i : Nat) : Nat := (bs.getD i 0).toNat
/-- Little-endian number of `n` bytes at `i`. -/
def leAt (bs : List Byte) (i n : Nat) : Nat := ofLe ((bs.drop i).take n)

/-! ### Decoding (R188) -/

/-- The bits of a byte string, least significant first: `w` bits at bit `k`. -/
def bitsLsb (bs : List Byte) (k w : Nat) : Nat := leAt bs (k / 8) (w / 8 + 2) / 2 ^ (k % 8) % 2 ^ w

/-- ZMASK: byte `i` where the mask bit is set, the others zero. -/
def zmaskGo (mask : List Byte) : Nat → Nat → List Byte → List Byte
  | 0, _, _ => []
  | n + 1, i, src =>
    if bitOf (byteAt mask (i / 8)) (i % 8) then src.headD 0 :: zmaskGo mask n (i + 1) (src.drop 1)
    else 0 :: zmaskGo mask n (i + 1) src

/-- DELTA: `n` elements after `x`, each the one before plus a signed field of `w` bits. -/
def deltaGo (bs : List Byte) (e w : Nat) : Nat → Nat → Nat → List Byte
  | 0, _, _ => []
  | n + 1, i, x =>
    let y := ((x : Int) + signedOf w (bitsLsb bs (i * w) w)) % (2 ^ (8 * e) : Nat)
    leBytes e y.toNat ++ deltaGo bs e w n (i + 1) y.toNat

/-- The block that a payload decodes to, and the payload's length; none for a reserved mode (R188, R189). -/
def plaitPayload (e : Nat) (pl : List Byte) : Option (List Byte × Nat) :=
  let mode := byteAt pl 0
  let body := pl.drop 1
  let n := plaitBlockBytes / e
  if mode = 0x00 then some (body.take 256, 257)
  else if mode = 0x01 then some ((List.replicate n (body.take e)).flatten, 1 + e)
  else if mode = 0x02 then
    let mask := body.take 32
    let set := ((List.range 256).filter fun i => bitOf (byteAt mask (i / 8)) (i % 8)).length
    some (zmaskGo mask 256 0 (body.drop 32), 33 + set)
  else if mode = 0x03 then
    let b := byteAt body 0
    some ((List.range 256).map fun i => BitVec.ofNat 8 (b + byteAt body (1 + i / 2) / 2 ^ (4 * (i % 2)) % 16), 130)
  else if 0x10 ≤ mode ∧ mode ≤ 0x17 then
    let w := mode - 0x0F
    some (body.take e ++ deltaGo (body.drop e) e w (n - 1) 0 (leAt body 0 e), 1 + e + cdiv ((n - 1) * w) 8)
  else none

/-- Element size of an image. -/
def plaitElem (img : List Byte) : Nat := if byteAt img 3 % 4 = 0 then 1 else 2
def plaitCount (img : List Byte) : Nat := leAt img 4 2
def plaitEnd (img : List Byte) : Nat := leAt img 6 2

/-- The check value of an image under a folded address (R185). -/
def plaitCheck (folded : Nat) (img : List Byte) : Nat :=
  crc32c (leBytes 8 folded ++ img.take 12 ++ (img.drop 16).take 512)

/-- The index of an image passes R189. -/
def plaitIndexOk (folded : Nat) (img : List Byte) : Bool :=
  leAt img 0 2 == 0x71A5 && byteAt img 2 == 1 && decide (byteAt img 3 < 2) && leAt img 8 4 == 0
    && decide (plaitCount img ≤ plaitBlocks) && decide (plaitHead ≤ plaitEnd img) && leAt img 12 4 == plaitCheck folded img

/-- Block `b` of an image, or none where R189 finds it in error. -/
def plaitBlock (img : List Byte) (b : Nat) : Option (List Byte) :=
  if plaitCount img ≤ b then some (List.replicate plaitBlockBytes 0)
  else
    let o := leAt img (16 + 2 * b) 2
    match plaitPayload (plaitElem img) (img.drop o) with
    | none => none
    | some (blk, len) =>
      if o < plaitHead ∨ plaitEnd img < o + len ∨ o / 16384 ≠ (o + len - 1) / 16384 then none else some blk

/-- Every block of a list, or none if one is in error. -/
def plaitBlocksOf (img : List Byte) : Nat → Nat → Option (List Byte)
  | 0, _ => some []
  | n + 1, b => (plaitBlock img b).bind fun x => (plaitBlocksOf img n (b + 1)).map fun r => x ++ r

/-- The page that an image decodes to; none where the image or a block is in error. -/
def plaitDecode (folded : Nat) (img : List Byte) : Option (List Byte) :=
  if plaitIndexOk folded img then plaitBlocksOf img plaitBlocks 0 else none

/-! ### The device's encoder (R190) -/

/-- Fields packed least significant bit first into bytes; unused bits are zero. -/
def packLsb (w : Nat) (fs : List Nat) : List Byte :=
  leBytes (cdiv (fs.length * w) 8) (fs.foldr (fun f a => f % 2 ^ w + 2 ^ w * a) 0)

/-- The elements of a block. -/
def elements (e : Nat) : Nat → List Byte → List Nat
  | 0, _ => []
  | n + 1, bs => leAt bs 0 e :: elements e n (bs.drop e)

/-- Differences of neighbours, as signed values of 8·e bits. -/
def deltas (e : Nat) : List Nat → List Int
  | a :: b :: r => signedOf (8 * e) (b + 2 ^ (8 * e) - a) :: deltas e (b :: r)
  | _ => []

/-- The field fits `w` bits, signed. -/
def fitsSigned (w : Nat) (x : Int) : Bool := decide (-(2 ^ (w - 1) : Nat) ≤ x) && decide (x < (2 ^ (w - 1) : Nat))

/-- The payloads that can hold a block, in ascending mode byte. -/
def plaitCandidates (e : Nat) (blk : List Byte) : List (List Byte) :=
  let n := plaitBlockBytes / e
  let els := elements e n blk
  let ds := deltas e els
  let raw := [0x00 :: blk]
  let const := if els.all (· == els.headD 0) then [0x01 :: blk.take e] else []
  let mask := (List.range 32).map fun i => BitVec.ofNat 8 ((List.range 8).map fun j => b2n (byteAt blk (8 * i + j) != 0) * 2 ^ j).sum
  let zmask := [0x02 :: mask ++ blk.filter (· ≠ 0)]
  let fits (b : Nat) : Bool := blk.all fun x => decide ((x.toNat + 256 - b) % 256 < 16)
  let nibble := match (List.range 256).find? fits with
    | none => []
    | some b => [0x03 :: BitVec.ofNat 8 b :: packLsb 4 (blk.map fun x => (x.toNat + 256 - b) % 256)]
  let delta := match ((List.range 9).drop 1).find? fun w => ds.all (fitsSigned w) with
    | none => []
    | some w => [BitVec.ofNat 8 (0x0F + w) :: blk.take e ++ packLsb w (ds.map fun (x : Int) => (x % ((2 ^ w : Nat) : Int)).toNat)]
  raw ++ const ++ zmask ++ nibble ++ delta

/-- The first of the shortest. -/
def shortest : List (List Byte) → List Byte
  | [] => []
  | x :: xs => xs.foldl (fun best y => if y.length < best.length then y else best) x

/-- The payload of a block: the mode of least length, the lower mode byte on equal lengths. -/
def plaitEncodeBlock (e : Nat) (blk : List Byte) : List Byte := shortest (plaitCandidates e blk)

/-- Payloads placed in order, none crossing a multiple of 16,384: their offsets and the bytes from 528 on. -/
def plaitPlace : List (List Byte) → Nat → List Nat × List Byte
  | [], _ => ([], [])
  | p :: ps, o =>
    let at_ := if o / 16384 = (o + p.length - 1) / 16384 then o else roundUp o 16384
    let (os, bs) := plaitPlace ps (at_ + p.length)
    (at_ :: os, List.replicate (at_ - o) 0 ++ p ++ bs)

/-- The blocks of a page. -/
def pageBlocks : Nat → List Byte → List (List Byte)
  | 0, _ => []
  | n + 1, bs => bs.take 256 :: pageBlocks n (bs.drop 256)

/-- One more than the highest block that is not wholly zero. -/
def plaitPresent (blks : List (List Byte)) : Nat := (blks.reverse.dropWhile fun b => b.all (· == 0)).length

/-- The image of a page under a folded address, or none where the page is held raw (R183, R190). -/
def plaitEncode (folded elem : Nat) (page : List Byte) : Option (List Byte) :=
  let e := if elem = 0 then 1 else 2
  let blks := pageBlocks plaitBlocks page
  let k := plaitPresent blks
  let (os, bs) := plaitPlace ((blks.take k).map (plaitEncodeBlock e)) plaitHead
  let fin := plaitHead + bs.length
  let head := leBytes 2 0x71A5 ++ [1, BitVec.ofNat 8 elem] ++ leBytes 2 k ++ leBytes 2 fin ++ leBytes 4 0
  let offs := (os.flatMap (leBytes 2)) ++ List.replicate (512 - 2 * k) 0
  if 65536 ≤ roundUp fin 128 then none
  else
    let chk := crc32c (leBytes 8 folded ++ head ++ offs)
    some (head ++ leBytes 4 chk ++ offs ++ bs ++ List.replicate (roundUp fin 128 - fin) 0)

/-- Peat pages that a stored image occupies (R186). -/
def imagePages : Option (List Byte) → Nat
  | none => 4
  | some img => cdiv img.length 16384

end Sys2Proof.Machine
end

