-- ==== Sys2Proof/Machine/MemOps.lean ====
section
/-! DEFINITION. Allocation memory (R164–R176): who owns a page, reads and writes of allocations, dirty tracking, poison and plait
errors, where a page's lines lie in DRAM (R276), and the requests that transfers raise at arbiter sites. -/

namespace Sys2Proof.Machine

def pageBytes : Nat := 65536

/-- The canonical form of allocation memory: every list of it has keys strictly rising and no default value. -/
def Mem.wf (m : Mem) : Bool :=
  m.bytes.wf 0 && m.dirty.wf false && m.dirtyPages.wf false && m.staged.wf false && m.poison.wf false && m.form.wf .fresh
    && m.window.wf false && m.full.wf false && m.rewritten.wf false

def Device.allocs (d : Device) : List (Nat × Alloc) := d.ten.allocs.filterMap fun e => e.2.map fun a => (e.1, a)

/-- The weaves loaded, by slot. -/
def Device.weaves (d : Device) : List (Nat × Weave) := d.ten.weaves.filterMap fun e => e.2.map fun w => (e.1, w)
/-- A bound weave that has a serving class (R145). -/
def Device.servingWeave (d : Device) : Option (Nat × Weave) := d.weaves.find? fun e => e.2.bound.isSome && e.2.serving.isSome

/-- The allocation that owns a page: its slot. Pages under SCRUB_ON_FREE are owned by none (R234). -/
def Device.ownerOf (d : Device) (page : Nat) : Option (Nat × Alloc) :=
  d.allocs.find? fun e =>
    e.2.freeing.isNone && decide (e.2.p0 ≤ page) && decide (page < e.2.p0 + e.2.pages)

/-- The base address of an allocation (R165). -/
def Alloc.base (a : Alloc) : Nat := 2 ^ 47 + a.gen * 2 ^ 38 + a.p0 * pageBytes

def Alloc.bytes (a : Alloc) : Nat := a.pages * pageBytes

/-- Half 0 or 1. -/
def halfNum (h : Bool) : Nat := b2n h

/-- The key of byte `b` of an allocation in the memory's byte map. -/
def Alloc.key (a : Alloc) (b : Nat) : Nat := a.p0 * pageBytes + b

/-- A page reads as uncorrectable: poisoned and not staged (R176, R287). -/
def Device.pageBad (d : Device) (page : Nat) : Bool := d.mem.poison.get false page && !d.mem.staged.get false page

/-- `n` bytes of an allocation from byte `b`. -/
def Device.readBytes (d : Device) (a : Alloc) (b n : Nat) : List Byte := d.mem.bytes.getList 0 (a.key b) n

/-- The pages that `n` bytes from byte `b` of an allocation touch. -/
def Alloc.pagesOf (a : Alloc) (b n : Nat) : List Nat :=
  if n = 0 then [] else rangeFrom (a.p0 + b / pageBytes) ((b + n - 1) / pageBytes - b / pageBytes + 1)

/-- A line lies in its mere: in a frame held whole, or by itself. -/
def Device.resident (d : Device) (h : Bool) (line : Nat) : Bool :=
  d.mem.full.get false (line / 512) || d.mem.cached.contains (h, line)

/-- The folded address of an allocation's page (R185). -/
def Alloc.folded (a : Alloc) (page : Nat) : Nat := a.base + (page - a.p0) * pageBytes

/-- Why bytes of an allocation cannot be read: a poisoned page, or a plait error with its folded address and block (R189, R287);
the allocation offset of the first unreadable line or block. -/
inductive Unread where
  | poison (off : Nat)
  | plait (off folded block : Nat)
  deriving DecidableEq, Repr

def Unread.off : Unread → Nat
  | .poison o => o
  | .plait o _ _ => o

/-- The blocks of a page, among those that hold bytes `lo` to `hi - 1` of it, which a read takes from the image: their lines do
not both lie in the mere. -/
def Device.blocksRead (d : Device) (a : Alloc) (page lo hi : Nat) : List Nat :=
  (rangeFrom (lo / 256) ((hi - 1) / 256 - lo / 256 + 1)).filter fun b =>
    let l := page * 512 + 2 * b
    !(d.resident (flagHalf a.flags) l && d.resident (flagHalf a.flags) (l + 1))

/-- The first block of a page that a read of bytes `lo` to `hi - 1` of it finds in error: the image's index is checked when it is
read, a block when it is decoded (R189). -/
def Device.badBlock (d : Device) (a : Alloc) (page lo hi : Nat) : Option Nat :=
  match d.mem.form.get .fresh page with
  | .plait img =>
    if d.mem.staged.get false page then none
    else if plaitIndexOk (a.folded page) img then (d.blocksRead a page lo hi).find? fun b => (plaitBlock img b).isNone
    else (d.blocksRead a page lo hi).head?
  | _ => none

/-- What makes bytes `lo` to `hi - 1` of a page unreadable. -/
def Device.unreadPage (d : Device) (a : Alloc) (page lo hi : Nat) : Option Unread :=
  let at_ := (page - a.p0) * pageBytes
  let g := if flagPlait a.flags then 256 else 128
  if d.pageBad page then some (.poison (at_ + lo / g * g))
  else (d.badBlock a page lo hi).map fun b => .plait (at_ + 256 * b) (a.folded page) b

/-- The first unreadable line or block of a range. -/
def Device.firstBad (d : Device) (a : Alloc) (b n : Nat) : Option Unread :=
  (a.pagesOf b n).findSome? fun pg =>
    let at_ := (pg - a.p0) * pageBytes
    d.unreadPage a pg (b - at_) (min pageBytes (b + n - at_))

/-- A plait error is recorded (R189, R393). -/
def Device.logUnread (d : Device) (now : Nat) (part core : Option Nat) : Unread → Device
  | .poison _ => d
  | .plait _ folded block => d.logFault now fcPlaitError part core folded block

/-- Every key of a list set. -/
def setAll {α : Type} [DecidableEq α] (d : α) (m : SMap α) (ks : List Nat) (v : α) : SMap α :=
  ks.foldl (fun m k => m.set d k v) m

/-- Bytes written to an allocation; with WRITE_BACK the lines become dirty and the pages are marked (R174, R175). A page without
PLAIT is then held raw. -/
def Device.writeBytes (d : Device) (a : Alloc) (b : Nat) (bs : List Byte) : Device :=
  if bs.isEmpty then d
  else
    let k := a.key b
    let m := { d.mem with bytes := d.mem.bytes.setList 0 k bs }
    let m := if flagPlait a.flags then m else { m with form := setAll .fresh m.form (a.pagesOf b bs.length) .raw }
    let m := if flagWriteBack a.flags then
        { m with
          dirty := setAll false m.dirty (rangeFrom (k / 128) ((k + bs.length - 1) / 128 - k / 128 + 1)) true
          dirtyPages := setAll false m.dirtyPages (a.pagesOf b bs.length) true
          rewritten := setAll false m.rewritten (a.pagesOf b bs.length) true }
      else m
    { d with mem := m }

/-- Dirty lines of a page range are clean: written home (R174). -/
def Mem.cleanLines (m : Mem) (p0 pages : Nat) : Mem := { m with dirty := m.dirty.clear (p0 * 512) ((p0 + pages) * 512) }

/-- The home of an allocation's pages is forgotten when it ends: contents, marks and frames (R166, R175). -/
def Mem.dropPages (m : Mem) (p0 pages : Nat) : Mem :=
  { m with
    bytes := m.bytes.clear (p0 * pageBytes) ((p0 + pages) * pageBytes)
    dirty := m.dirty.clear (p0 * 512) ((p0 + pages) * 512)
    dirtyPages := m.dirtyPages.clear p0 (p0 + pages)
    staged := m.staged.clear p0 (p0 + pages)
    poison := m.poison.clear p0 (p0 + pages)
    form := m.form.clear p0 (p0 + pages)
    full := m.full.clear p0 (p0 + pages)
    window := m.window.clear p0 (p0 + pages)
    rewritten := m.rewritten.clear p0 (p0 + pages)
    fills := m.fills.filter fun f => decide (f.line < p0 * 512) || decide ((p0 + pages) * 512 ≤ f.line)
    cached := m.cached.filter fun e => decide (e.2 < p0 * 512) || decide ((p0 + pages) * 512 ≤ e.2) }

/-! ### Requests at arbiter sites (R34–R36, R43) -/

/-- Device time in the form of a latest-service time (R35). -/
def lstNow (now : Nat) : Nat := now / 16 % 2 ^ 32

/-- d = (t − now) mod 2^32 as a signed value (R35). -/
def lstDist (now t : Nat) : Int := signedOf 32 (t + 2 ^ 32 - lstNow now)

/-- A time as a latest-service time: one further than 2^31 − 1 units ahead is carried as that far (R35). -/
def lstOf (now time : Nat) : Nat :=
  if time / 16 ≤ now / 16 + (2 ^ 31 - 1) then time / 16 % 2 ^ 32 else (now / 16 + 2 ^ 31 - 1) % 2 ^ 32

/-- A transfer raises its request at the first port of its route; with d ≤ 0 it is past from raising (R35). -/
def Device.request (d : Device) (now : Nat) (route : List Hop) (lst : Nat) (job : Job) : Device :=
  match route with
  | [] => d
  | h :: r =>
    let dist := lstDist now lst
    let past := if dist ≤ 0 then some ((now / 16 : Nat) + dist) else none
    { d with arb := { d.arb with reqs := d.arb.reqs ++ [⟨h.site, h.inst, h.port, h.units, lst, past, job, r, h.page⟩] } }

/-- Several transfers, each at the first port of its route. -/
def Device.requests (d : Device) (now : Nat) (routes : List (List Hop)) (lst : Nat) (job : Job) : Device :=
  forEach d routes fun d r => d.request now r lst job

/-- The next of the model's numbers for transfers is taken. -/
def Device.numbered (d : Device) : Device := { d with arb := { d.arb with next := d.arb.next + 1 } }

/-- A transfer still has a unit to be granted somewhere. -/
def Device.asking (d : Device) (x : Xfer) : Bool := d.arb.reqs.any fun r => r.job.what == x

/-- A port at which a transfer asks `units` grants and no DRAM page. -/
def hop (site : Site) (inst port : Nat) (units : Nat := 1) : Hop := ⟨site, inst, port, units, none⟩

/-- Router output of a bundle towards a port: four outputs each (R43). -/
def routerOut (b o : Nat) : Nat := 4 * b + o

/-- The arbiter ports a message of `f` flits passes (R43, R68): none within a bundle; within a quadrant horizontal first, then
vertical, then the destination's output to its bundle; otherwise the spines, and the bridge between halves in packets of at
most 8 flits. -/
def msgRoute (src dst f : Nat) : List Hop :=
  let b := bundleOf src; let e := bundleOf dst
  if b = e then []
  else if b / 4 = e / 4 then
    let h := if b % 2 ≠ e % 2 then [hop .meshRouter (routerOut b 1) 0] else []
    let mid := if b % 2 ≠ e % 2 then b / 2 * 2 + e % 2 else b
    let v := if mid ≠ e then [hop .meshRouter (routerOut mid 2) (if h.isEmpty then 0 else 1)] else []
    h ++ v ++ [hop .meshRouter (routerOut e 0) (if v.isEmpty then 1 else 2)]
  else
    let hs := b / 8; let hd := e / 8
    let up : Hop := hop .meshRouter (routerOut b 3) 0
    let down : Hop := hop .meshRouter (routerOut e 0) 3
    if hs = hd then [up, hop .halfSpine (7 * hs + e / 4 % 2) (b / 4 % 2), down]
    else [up, hop .halfSpine (7 * hs + 6) (b / 4 % 2), hop .bridge 0 (1 + hs) (cdiv f 8), hop .halfSpine (7 * hd + e / 4 % 2) 6, down]

/-! ### Where lines lie (R172, R275–R277) -/

/-- The rotation of group `j` of a physical page (R276). -/
def rotation (p j : Nat) : Nat :=
  let y := (p * 128 + j) ^^^ (Config.addrKey.toNat % 2 ^ 29)
  (y % 256 ^^^ y / 2 ^ 8 % 256 ^^^ y / 2 ^ 16 % 256 ^^^ y / 2 ^ 24) % 6

/-- The subchannel of its half that holds line `l` of a physical page. -/
def subOf (p l : Nat) : Nat := (l % 6 + rotation p (l / 6)) % 6

/-- Ports of a memory controller in the tie order of R39: refresh 0, fill and write-back 1, page movers from 2. -/
def portScan : Nat := 10
def portSteward : Nat := 11
def portScrub : Nat := 12

/-- A line of a physical page at a memory port: two bursts. -/
def dramLine (h p port l : Nat) : Hop := ⟨.memPort, 6 * h + subOf p l, port, 2, some p⟩

/-- The first `n` lines of a physical page: each whole group of six covers every subchannel once (R276). -/
def dramFirst (h p port n : Nat) : List (List Hop) :=
  (if n < 6 then [] else (List.range 6).map fun i => [(⟨.memPort, 6 * h + i, port, 2 * (n / 6), some p⟩ : Hop)])
    ++ (rangeFrom (n / 6 * 6) (n % 6)).map fun l => [dramLine h p port l]

/-- Lines of a physical page at memory ports. -/
def dramLines (h p port : Nat) (ls : List Nat) : List (List Hop) :=
  if ls = List.range ls.length then dramFirst h p port ls.length else ls.map fun l => [dramLine h p port l]

/-- The slices that lines of a page touch, with the lines in each (R172). -/
def sliceHops (h port : Nat) (ls : List Nat) : List Hop :=
  (List.range 4).filterMap fun s =>
    let n := (ls.filter fun l => l % 4 == s).length
    if n = 0 then none else some (hop .mereSlice (4 * h + s) port n)

/-- The routes of a page mover of core `c` for lines of a page in half `h`: the mere slices, and the bridge between halves in
packets of two lines, crossed after the slice by a read and before it by a write (R42, R50). -/
def moverRoutes (c h : Nat) (ls : List Nat) (write : Bool) : List (List Hop) :=
  if halfOfCore c = h then (sliceHops h (2 + bundleOf c % 8) ls).map fun x => [x]
  else (sliceHops h 1 ls).map fun x =>
    let across := hop .bridge 0 (1 + if write then halfOfCore c else h) (cdiv x.units 2)
    if write then [across, x] else [x, across]

/-- The pages and lines in each that `n` bytes at an allocation-space address touch. -/
def pageLines (a n : Nat) : List (Nat × List Nat) :=
  if n = 0 then []
  else
    let f := a % 2 ^ 38 / 128; let l := (a % 2 ^ 38 + n - 1) / 128
    (rangeFrom (f / 512) (l / 512 - f / 512 + 1)).map fun p =>
      let lo := max f (p * 512); let hi := min l (p * 512 + 511)
      (p, rangeFrom (lo - p * 512) (hi + 1 - lo))

end Sys2Proof.Machine
end

