-- ==== Sys2Proof/Machine/Layout.lean ====
section
/-! DEFINITION. The power states' layout (R370, R372, R377): the hops of a transition and their delays, the domains each
state keeps on, and the voltage it needs of each rail beyond R15. -/

namespace Sys2Proof.Machine

/-- The next state on the way from one state to another: a transition not listed passes through the intermediate states
(R372). -/
def Power.hop : Power → Power → Power
  | .run, .hush => .hush
  | .run, _ => .listen
  | .hush, .run => .run
  | .hush, _ => .listen
  | .listen, .off => .ember
  | .listen, p => p
  | .ember, .off => .off
  | .ember, _ => .listen
  | .off, _ => .run

/-- The delay of one hop in ns (R372). -/
def hopNs : Power → Power → Nat
  | .run, .hush => 3000000
  | .run, _ => 2500000
  | .hush, .run => 8000000
  | .hush, _ => 2000000
  | .listen, .run => 11000000
  | .listen, .hush => 3500000
  | .listen, _ => 1000000
  | .ember, .off => 1000000
  | .ember, _ => 2000000
  | .off, _ => 1800000000

/-- The delay of a transition: the sum over its hops, at most four. -/
def transNs : Nat → Power → Power → Nat
  | 0, _, _ => 0
  | n + 1, a, b => if a = b then 0 else hopNs a (a.hop b) + transNs n (a.hop b) b

/-- The transition lowers the state. -/
def Power.lowers (a b : Power) : Bool := decide (a.num < b.num)

/-- The state that the transition under way is about to reach. -/
def Device.hopTo (d : Device) : Option Power :=
  match d.pwr.trans with
  | some t => if t.started.isSome then some (d.pwr.state.hop t.to_) else none
  | none => none

/-- The state whose layout the rails follow: the one a transition under way is about to reach, or the present one. -/
def Device.layout (d : Device) : Power := d.hopTo.getD d.pwr.state

/-- The port leaves service: the hop to EMBER is under way, and the POWER_STATE that asked for it is answered (R256). -/
def Device.leaving (d : Device) : Bool := d.hopTo == some .ember || d.hopTo == some .off

/-- RUN or HUSH is served: hub units that LISTEN gates are on, and no transition is gating them. -/
def Device.hubServes (d : Device) : Bool :=
  d.ready && !d.therm.tripped && d.pwr.pfail.isNone && d.hub.resetting.isNone
    && (d.pwr.state == .run || d.pwr.state == .hush) && !(d.hopTo == some .listen)

/-- Self-timed domains that a state keeps on (R370, in the order of R13): the scout bundle is domain 0, the meshes,
spines and slices are 16 to 29, the pipes 30 to 33, the bridge 34. -/
def domainIn (p : Power) (i : Nat) : Bool :=
  match p with
  | .run => true
  | .hush => i == 0 || decide (16 ≤ i)
  | .listen => i == 34
  | _ => false

/-- The voltage in mV that a state needs of a rail whatever its domains' paces (R377). -/
def Device.stateMinMv (d : Device) (p : Power) (r : Nat) : Nat :=
  match p with
  | .hush => if r < 2 then 640 else 0
  | .listen => if r = 2 || r == b2n d.leadHalf then 550 else 0
  | _ => 0

end Sys2Proof.Machine
end

