-- ==== Sys2Proof/WellFormed.lean ====
section
/-! DEFINITION. Which commands a source can send: operands whose size the types leave open. -/

namespace Sys2Proof

/-- A TLP carries 1 to 32 words: Max_Payload_Size 256 bytes (R191). -/
def tlpWf (ws : List Word) : Bool := decide (1 ≤ ws.length) && decide (ws.length ≤ 32)

/-- A die's sensors give at least one reading each sample (R379). -/
def readingsWf (l : List Int) : Bool := !l.isEmpty

/-- A channel set of `n` channels with `k` samples each (R349). -/
def blockWf {α : Type} (n k : Nat) (l : List (List α)) : Bool := l.length == n && l.all fun c => c.length == k

/-- A disabled byte lies in a word that the TLP carries. -/
def tlpFaultWf (ws : List Word) : TlpFault → Bool
  | .partialWord k => decide (k < ws.length)
  | _ => true

/-- A read of an aperture is 1 to 8 words (R193). -/
def readWf (n : Nat) : Bool := decide (1 ≤ n) && decide (n ≤ 8)

/-- A register access is aligned, of 4 or 8 bytes (R193). -/
def accessWf (off : Nat) (wide : Bool) : Bool := off % (if wide then 8 else 4) == 0

/-- A row exists: 3,072 of a pool, 4,096 of the accumulators, 6,144 of a mere slice. -/
def sramRowWf (arr : SramArray) (unit row : Nat) : Bool :=
  match arr with
  | .pool => decide (unit < 80) && decide (row < 3072)
  | .accumulator => decide (unit < 80) && decide (row < 4096)
  | .mere => decide (unit < 8) && decide (row < 6144)
  | .hub => decide (unit < 4) && decide (row < 65536)

/-- A command is well formed. -/
def Instr.wf : Instr → Bool
  | .cmdPortWrite ws f => tlpWf ws && tlpFaultWf ws f
  | .replyPortRead n => readWf n.toNat
  | .regWriteOther (.bar0 off) wide _ => accessWf off.toNat wide
  | .thermalSample h a b => readingsWf h && readingsWf a && readingsWf b
  | .audioBlockComplete lp hq => blockWf 16 160 lp && (hq.isEmpty || blockWf 16 480 hq)
  | .sramRowError arr unit row _ _ _ => sramRowWf arr unit row
  | .skewWindow _ bursts => bursts.length == 6
  | _ => true

end Sys2Proof
end

