-- ==== Sys2Proof/Machine/Port.lean ====
section
/-! DEFINITION. The host port (R191–R219): the command FIFO and its errors, the packet check with checks 1 to 5 of
R223, replies, events and interrupts as the host reads them, and the port reset. -/

namespace Sys2Proof.Machine

/-! ### Registers -/

/-- Words the command FIFO holds (R198). -/
def fifoWords : Nat := 8192

/-- The port answers: its hub is up, its state does not gate it, and the hard trip has not acted (R370, R374, R383). -/
def Device.portOn (d : Device) : Bool :=
  !d.therm.tripped &&
  match d.aon.boot with
  | .hubUp | .trained => true
  | .done => d.pwr.state == .run || d.pwr.state == .hush || d.pwr.state == .listen
  | _ => false

/-- CREDIT.FREE (R198): 0 until READY. -/
def Device.freeWords (d : Device) : Nat := if d.ready then fifoWords - d.port.fifo.length else 0

/-- PORT_ERR (R204). -/
def Device.portErrReg (d : Device) : Word :=
  match d.port.err with
  | none => 0
  | some e => mkWord [(1, 0), (e.cause, 1), (b2n e.headerOk, 4), (e.wordIndex, 8), (e.seq, 32)]

/-- PORT_SEQ (R205). -/
def Device.portSeqReg (d : Device) : Word := mkWord [(d.port.lastGood, 0), (b2n d.port.err.isSome, 63)]

/-- Reply words not yet read. -/
def Port.replyWordsLeft (p : Port) : Nat := (p.replies.map List.length).sum - p.rpos

/-- REPLY_AVAIL (R211). -/
def Device.replyAvailReg (d : Device) : Word :=
  mkWord [(min 8192 d.port.replyWordsLeft, 0), (b2n (d.port.rpos == 0 && !d.port.replies.isEmpty), 14)]

/-- Whole event records readable: a record read in part does not count (R214). -/
def Events.records (e : Events) : Nat := e.fifo.length - (if e.rpos = 0 then 0 else 1)

/-- EVENT_AVAIL (R214). -/
def Device.eventAvailReg (d : Device) : Word := mkWord [(d.ev.records, 0), (d.ev.lost, 32)]

/-- The CREDIT cause when FREE rises from below CREDIT_THRESH to it or above (R215). -/
def Device.creditWatch (d : Device) (f : Device → Device) : Device :=
  let e := f d
  if d.freeWords < d.port.creditThresh && e.port.creditThresh ≤ e.freeWords then e.setCause causeCredit else e

/-- A port reset (R192): queues emptied, error and sequence numbers cleared, interrupt registers at reset. -/
def Device.portReset (d : Device) : Device :=
  let d := forEach d (d.port.order.filter fun t => t.tagged && t.reply.isSome) fun d t => d.freeTag t.id
  { d with
    port := { d.port with
      fifo := [], stage := [], arrIdx := 0, arrHdr := none, arrSeq := 0, expSeq := 0, lastGood := 0xFFFFFFFF
      err := none, order := [], replies := [], rpos := 0, rlast := none, rseq := 0, cause := 0, mask := 0xFF
      creditThresh := 4096, msix := msixReset, msixPend := 0, busMaster := false, msixMasked := false, irqLow := false
      epoch := d.port.epoch + 1 }
    ev := { d.ev with fifo := [], rpos := 0 } }

/-! ### Port errors (R204, R208) -/

/-- The error latches, if none is, with the PORT cause. -/
def Device.latch (d : Device) (e : PortErr) : Device :=
  if d.port.err.isSome then d else { d with port := { d.port with err := some e } }.setCause causePort

/-- The words of the packet in progress leave the FIFO and the staging place. -/
def Port.dropArriving (p : Port) : Port :=
  { p with
    fifo := p.fifo.take (p.fifo.length - p.arrIdx)
    stage := if p.fifo.length < p.arrIdx then [] else p.stage
    arrIdx := 0, arrHdr := none }

/-- An arrival-side error (R204): latched, and the packet in progress answered FRAMING_LOST if its header had arrived. -/
def Device.arrivalError (d : Device) (now cause : Nat) : Device :=
  let p := d.port
  let d := d.latch ⟨cause, p.arrHdr.isSome, p.arrIdx, p.arrSeq⟩
  let d := match p.arrHdr with
    | some h => d.reply (hdrId h p.arrSeq p.epoch) stFramingLost now []
    | none => d
  d.creditWatch fun d => { d with port := d.port.dropArriving }

/-- A word enters the FIFO (R198, R199). -/
def Port.push (p : Port) (w : Word) : Port :=
  let hdr := if p.arrIdx = 0 then w else p.arrHdr.getD 0
  let idx := p.arrIdx + 1
  if idx = hdrLen hdr then
    { p with fifo := p.fifo ++ [w], arrIdx := 0, arrHdr := none, arrSeq := (p.arrSeq + 1) % 2 ^ 32 }
  else { p with fifo := p.fifo ++ [w], arrIdx := idx, arrHdr := some hdr }

/-- Words of one TLP in address order; one that finds the FIFO full is OVERFLOW, and those after it are discarded. -/
def Device.arrive (d : Device) (now : Nat) : List Word → Device
  | [] => d
  | w :: ws =>
    if d.freeWords = 0 then d.arrivalError now 3
    else ({ d with port := d.port.push w } : Device).arrive now ws

/-- CMD_PORT_WRITE (R199, R204, R208, R219): the words of one write TLP, or of one xSPI write, whose only error is a word
that chip select cuts. A PCIe write of more than 32 words exceeds Max_Payload_Size (R191): no word enters (log entry 89). -/
def execCmdPortWrite (ws : List Word) (flt : TlpFault) (s : State) : Host.Outcome State Fault Refusal :=
  s.act fun now d =>
    if !d.portOn || d.port.err.isSome || (!d.aon.bootSel && decide (32 < ws.length)) then d
    else match flt with
      | .good => d.arrive now ws
      | .poisoned => if d.aon.bootSel then d.arrive now ws else d.arrivalError now 1
      | .ecrc => if d.aon.bootSel then d.arrive now ws else d.arrivalError now 2
      | .partialWord k =>
        let d := d.arrive now (ws.take k)
        if d.port.err.isSome || decide (ws.length ≤ k) then d else d.arrivalError now 4

/-! ### The check (R202, R203, R223) -/

/-- Opcodes listed (R227–R267). -/
def opcodesAny : List Nat := [0x00, 0x01, 0x02, 0x31, 0x32, 0x69, 0x79]
def opcodesOwner : List Nat :=
  [0x04, 0x05, 0x06, 0x07, 0x60, 0x61, 0x62, 0x70, 0x71, 0x78, 0x7C, 0x7D, 0x7E, 0x7F]
def opcodesTenant : List Nat :=
  [0x10, 0x11, 0x12, 0x13, 0x14, 0x15, 0x20, 0x21, 0x22, 0x23, 0x30, 0x38, 0x40, 0x41, 0x42, 0x48, 0x49, 0x4A,
   0x50, 0x51, 0x52, 0x53, 0x68]
/-- Opcodes that a device out of service still takes (R223 check 4). -/
def opcodesOos : List Nat := [0x01, 0x02, 0x7C, 0x7E, 0x7F]
/-- Opcodes served in LISTEN (R374). -/
def opcodesListen : List Nat :=
  [0x00, 0x01, 0x02, 0x31, 0x32, 0x69, 0x79, 0x06, 0x07, 0x51, 0x53, 0x60, 0x62, 0x7C, 0x7E, 0x7F]

def opcodeListed (op : Nat) : Bool := opcodesAny.contains op || opcodesOwner.contains op || opcodesTenant.contains op
/-- The opcode belongs to the context's class (R222). -/
def classOk (op ctx : Nat) : Bool :=
  opcodesAny.contains op || (if ctx = 0 then opcodesOwner.contains op else opcodesTenant.contains op)

/-- Context 0 is always open (R222). -/
def Device.ctxOpen (d : Device) (ctx : Nat) : Bool := ctx == 0 || d.ten.contexts.get false ctx

/-- The tag check of R203: the status of a failure. -/
def Tag.check (t : Tag) (gen : Nat) : Option Nat :=
  if t.used && gen ≠ (t.gen + 1) % 16 then some stStaleGen else if t.busy then some stRefusedState else none

/-- A good packet meets checks 1 to 5 of R223; passing them, it is held for its opcode's row. -/
def Device.interpret (d : Device) (now : Nat) (p : Packet) : Device :=
  let id := p.id
  if !d.ctxOpen id.ctx then d.refusePacket now id stRefusedState
  else match (d.port.tags.get {} (tagKey id.ctx id.tag)).check id.gen with
    | some st => d.refusePacket now id st
    | none =>
      let d := { d with port := { d.port with tags := d.port.tags.set {} (tagKey id.ctx id.tag) ⟨true, id.gen, true⟩ } }
      let d := d.enqueue id
      if !opcodeListed id.op then d.answer now id stUnknownOpcode []
      else if d.hub.oos && !opcodesOos.contains id.op then d.answer now id stRefusedState []
      else if !classOk id.op id.ctx then d.answer now id stDenied []
      else { d with port := { d.port with interp := some p } }

/-- A check-side error (R204, R208): latched; its packet answered unless an error had latched before; every word goes. -/
def Device.checkError (d : Device) (now : Nat) (e : PortErr) (hdr : Word) (seq status : Nat) : Device :=
  let fresh := d.port.err.isNone
  let d := d.latch e
  let d := if fresh then d.reply (hdrId hdr seq d.port.epoch) status now [] else d
  d.creditWatch fun d => { d with port := { d.port with fifo := [], stage := [], arrIdx := 0, arrHdr := none } }

/-- The demand items that each partition holds, the running ones included (R27). -/
def Device.itemsHeld (d : Device) : SMap Nat :=
  d.parts.filterMap fun e => let n := e.2.allItems.length; if n = 0 then none else some (e.1, n)

/-- The packet whose words are all staged is checked (R202). -/
def Device.checkPacket (d : Device) (now : Nat) (ws : List Word) : Device :=
  let p : Packet := ⟨ws, now, d.port.epoch, d.itemsHeld⟩
  let chk := wordAt ws (ws.length - 1)
  let seq := chk.fld 63 32
  if packetCrc seq (ws.take (ws.length - 1)) ≠ chk.fld 31 0 then
    d.checkError now ⟨6, true, ws.length - 1, d.port.expSeq⟩ p.hdr seq stCheckFail
  else if seq ≠ d.port.expSeq then
    d.checkError now ⟨7, true, ws.length - 1, d.port.expSeq⟩ p.hdr seq stSeqGap
  else
    let d := { d with port := { d.port with lastGood := seq, expSeq := (d.port.expSeq + 1) % 2 ^ 32 } }
    d.interpret now p

/-- PACKET_CHECK (R202): the device stages the words of the next packet and, once its check word is there, checks it.
While a good packet is held by the interpreter, nothing is checked: good packets are interpreted in SEQ order. -/
def execPacketCheck (s : State) : Host.Outcome State Fault Refusal :=
  s.act fun now d =>
    if !d.portOn || d.leaving || d.port.interp.isSome then d
    else
      let all := d.port.stage ++ d.port.fifo
      match all with
      | [] => d
      | h :: _ =>
        let l := hdrLen h
        if l < 3 then d.checkError now ⟨5, true, 0, d.port.expSeq⟩ h d.port.expSeq stFramingLost
        else if all.length < l then d.creditWatch fun d => { d with port := { d.port with stage := all, fifo := [] } }
        else
          let d := d.creditWatch fun d => { d with port := { d.port with stage := [], fifo := all.drop l } }
          d.checkPacket now (all.take l)

/-! ### PORT_RESYNC (R206, R207, R211) -/

def resyncKey (v : Word) : Bool := v.fld 63 56 == 0xA5

/-- PORT_RESYNC_CMD: a write of PORT_RESYNC with CMD set (R206, R207). -/
def execPortResyncCmd (v : Word) (s : State) : Host.Outcome State Fault Refusal :=
  s.act fun now d =>
    if !d.portOn || !resyncKey v || !v.getLsbD 48 then d
    else
      let next := v.fld 31 0
      let d := match d.port.arrHdr with
        | some h => d.reply (hdrId h d.port.arrSeq d.port.epoch) stFramingLost now []
        | none => d
      d.creditWatch fun d => { d with port := { d.port with
        fifo := [], stage := [], arrIdx := 0, arrHdr := none, err := none
        expSeq := next, arrSeq := next, lastGood := (next + 2 ^ 32 - 1) % 2 ^ 32 } }

/-- The read point returns to the header of the reply being read, or of the reply last finished (R211). -/
def Port.rewind (p : Port) : Port :=
  if p.rpos ≠ 0 then { p with rpos := 0 }
  else match p.rlast with
    | some r => { p with replies := r :: p.replies, rlast := none }
    | none => p

/-- REPLY_REWIND: a write of PORT_RESYNC with REPLY_REWIND set (R206, R211). -/
def execReplyRewind (v : Word) (s : State) : Host.Outcome State Fault Refusal :=
  s.act fun _ d =>
    if !d.portOn || !resyncKey v || !v.getLsbD 49 then d else { d with port := d.port.rewind }

/-! ### Reads -/

/-- The next reply word, or 0 and nothing removed (R211). -/
def Port.readReply (p : Port) : Word × Port :=
  match p.replies with
  | [] => (0, p)
  | r :: rs =>
    let last := if p.rpos = 0 then none else p.rlast
    if p.rpos + 1 < r.length then (wordAt r p.rpos, { p with rpos := p.rpos + 1, rlast := last })
    else (wordAt r p.rpos, { p with replies := rs, rpos := 0, rlast := some r })

/-- `n` reply words in order, appended to `acc`. -/
def Port.readReplies (p : Port) : Nat → List Word → Port
  | 0, acc => { p with readData := acc }
  | n + 1, acc => let (w, q) := p.readReply; q.readReplies n (acc ++ [w])

/-- REPLY_PORT_READ: a read of n words of REPLY_PORT (R211). A PCIe read of more than 8 words is none that the port takes
(R193): it has no effect (log entry 89). An xSPI read takes the words that it clocks out whole (R219). -/
def execReplyPortRead (n : BitVec 4) (s : State) : Host.Outcome State Fault Refusal :=
  s.act fun _ d =>
    if d.portOn && (d.aon.bootSel || decide (n.toNat ≤ 8)) then { d with port := d.port.readReplies n.toNat [] } else d

/-- One word of the event FIFO; a record leaves it with its fourth word (R214). -/
def Events.read (e : Events) : Word × Events :=
  match e.fifo with
  | [] => (0, e)
  | r :: rs => if e.rpos < 3 then (wordAt r e.rpos, { e with rpos := e.rpos + 1 })
    else (wordAt r e.rpos, { e with fifo := rs, rpos := 0 })

/-- EVENT_PORT_READ (R214). -/
def execEventPortRead (s : State) : Host.Outcome State Fault Refusal :=
  s.act fun _ d =>
    if d.portOn then { d with ev := d.ev.read.2, port := { d.port with readData := [d.ev.read.1] } } else d

/-- DEV_ID (R195): part 0x8840, stepping B1, the fused grade, port version 1. -/
def devIdWord : Word := mkWord [(0x8840, 0), (0xB1, 16), (b2n Config.gradeE, 24), (1, 32)]

/-- CREDIT (R198). -/
def Device.creditReg (d : Device) : Word := BitVec.ofNat 64 d.freeWords

/-- What an aligned 8-byte read of a BAR0 register returns (R193, R194). A write-only register, CMD_PORT and an offset that is
not listed read as 0; the apertures REPLY_PORT and EVENT_PORT give the word that their next read removes. -/
def Device.regValue (d : Device) (now off : Nat) : Word :=
  if off = 0x0000 then devIdWord
  else if off = 0x0008 then d.devStatus
  else if off = 0x0010 then BitVec.ofNat 64 now
  else if off = 0x0100 then d.creditReg
  else if off = 0x0108 then d.portErrReg
  else if off = 0x0110 then d.portSeqReg
  else if off = 0x0118 then d.replyAvailReg
  else if off = 0x0120 then d.eventAvailReg
  else if off = 0x0130 then mkWord [(b2n d.port.xspiMode, 0)]
  else if off = 0x0200 then d.port.cause.setWidth 64
  else if off = 0x0208 then d.port.mask.setWidth 64
  else if off = 0x0210 then BitVec.ofNat 64 d.port.creditThresh
  else if 0x2000 ≤ off ∧ off < 0x3000 then d.port.readReply.1
  else if 0x3000 ≤ off ∧ off < 0x4000 then d.ev.read.1
  else if 0x4000 ≤ off ∧ off < 0x4080 then BitVec.ofNat 64 (d.port.msix.rdLe (off - 0x4000) 8)
  else if off = 0x4800 then d.port.msixPend.setWidth 64
  else 0

/-- What a read of 8 bytes, or of 4 in [31:0], at an aligned offset returns (R193). A 4-byte read at 0x0014 returns the half of
device time that the last 4-byte read at 0x0010 latched (R197). -/
def Device.readValue (d : Device) (now off : Nat) (wide : Bool) : Word :=
  if wide then d.regValue now off
  else if off = 0x0014 then BitVec.ofNat 64 d.port.timeHi
  else BitVec.ofNat 64 ((d.regValue now (off - off % 8)).fld (8 * (off % 8) + 31) (8 * (off % 8)))

/-- A read of a register outside REPLY_PORT and EVENT_PORT: the value returned, LOST cleared with EVENT_AVAIL, and the
high half of device time latched by a 4-byte read at 0x0010 (R193, R197, R214). Reads of other registers change nothing
else, so the table has no row for them. -/
def Device.readReg (d : Device) (now off : Nat) (wide : Bool) : Device :=
  { d with
    ev := if off = 0x0120 ∧ wide ∨ off = 0x0124 then { d.ev with lost := 0 } else d.ev
    port := { d.port with
      readData := [d.readValue now off wide]
      timeHi := if off = 0x0010 ∧ !wide then now / 2 ^ 32 % 2 ^ 32 else d.port.timeHi } }

/-- EVENT_AVAIL_READ: LOST clears as it is read (R214). -/
def execEventAvailRead (s : State) : Host.Outcome State Fault Refusal :=
  s.act fun now d => if d.portOn then d.readReg now 0x0120 true else d

/-- TIME_READ_LOW: a 4-byte read at 0x0010 latches the high half (R197). -/
def execTimeReadLow (s : State) : Host.Outcome State Fault Refusal :=
  s.act fun now d => if d.portOn then d.readReg now 0x0010 false else d

/-! ### Interrupt and other registers -/

/-- INT_CAUSE_WRITE: ones clear causes (R215); a cleared cause's pending bit clears, as the PCIe standard has it. -/
def execIntCauseWrite (v : Word) (s : State) : Host.Outcome State Fault Refusal :=
  s.act fun _ d =>
    if d.portOn then
      let c := v.extractLsb' 0 8
      { d with port := { d.port with cause := d.port.cause &&& ~~~ c, msixPend := d.port.msixPend &&& ~~~ c } }.irqLevel
    else d

/-- INT_MASK_WRITE: unmasking a set cause sends it (R216). -/
def execIntMaskWrite (v : Word) (s : State) : Host.Outcome State Fault Refusal :=
  s.act fun _ d =>
    if d.portOn then
      let m := v.extractLsb' 0 8
      let send := d.port.cause &&& d.port.mask &&& ~~~ m
      let d := { d with port := { d.port with mask := m } }
      (forEach d ((List.range 8).filter fun n => send.getLsbD n) fun d n => d.sendVector n).irqLevel
    else d

/-- XSPI_MODE_SET: a write of XSPI_CTRL, ignored through the PCIe port (R217). -/
def execXspiModeSet (v : Word) (s : State) : Host.Outcome State Fault Refusal :=
  s.act fun _ d =>
    if d.portOn && d.aon.bootSel then { d with port := { d.port with xspiMode := v.getLsbD 0 } } else d

/-- A vector that can send while its bit is pending sends its message (R216). -/
def Device.flushVector (d : Device) (n : Nat) : Device :=
  if d.port.msixPend.getLsbD n && d.vectorOpen n && !d.aon.bootSel then
    { d with port := { d.port with msixPend := d.port.msixPend &&& ~~~ ((1 : BitVec 8) <<< n), msixSent := d.port.msixSent ++ [n] } }
  else d
def Device.flushVectors (d : Device) : Device := forEach d (List.range 8) Device.flushVector

/-- REG_WRITE_OTHER: CREDIT_THRESH, the MSI-X table, and the two bits of the standard's configuration space that R191 and R216
name; a write at any other offset is ignored, and so is one that is not aligned (R193, R194, R198; log entry 89). -/
def execRegWriteOther (reg : HostReg) (wide : Bool) (v : Word) (s : State) : Host.Outcome State Fault Refusal :=
  s.act fun _ d =>
    if !d.portOn then d
    else match reg with
      | .busMaster => ({ d with port := { d.port with busMaster := v.getLsbD 0 } } : Device).flushVectors
      | .msixFunctionMask => ({ d with port := { d.port with msixMasked := v.getLsbD 0 } } : Device).flushVectors
      | .bar0 off =>
        let a := off.toNat
        if !accessWf a wide then d
        else if a = 0x0210 then { d with port := { d.port with creditThresh := v.fld 13 0 } }
        else if 0x4000 ≤ a ∧ a ≤ 0x407F then
          let bs := leBytes (if wide then 8 else 4) v.toNat
          let d := { d with port := { d.port with msix := d.port.msix.setList 0 (a - 0x4000) bs } }
          d.flushVector ((a - 0x4000) / 16)
        else d

/-! ### The address decode, and the xSPI frame (R193, R194, R217–R219) -/

/-- The rows that a write of 8 bytes, or of 4 in [31:0] of `v`, at a BAR0 offset outside CMD_PORT amounts to. The half of a
register that a 4-byte write leaves out counts as zero (log entry 89). -/
def busWrite (off : BitVec 16) (wide : Bool) (v : Word) : List Instr :=
  let a := off.toNat
  let x : Word := if wide then v else BitVec.ofNat 64 (v.fld 31 0 * 2 ^ (8 * (a % 8)))
  let r := a - a % 8
  if !accessWf a wide then []
  else if r = 0x0128 then
    (if x.getLsbD 48 then [.portResyncCmd x] else []) ++ (if x.getLsbD 49 then [.replyRewind x] else [])
  else if r = 0x0130 then if a = r then [.xspiModeSet x] else []
  else if r = 0x0200 then [.intCauseWrite x]
  else if r = 0x0208 then if a = r then [.intMaskWrite x] else []
  else if r = 0x0210 then if a = r then [.regWriteOther (.bar0 off) wide v] else []
  else [.regWriteOther (.bar0 off) wide v]

/-- What an xSPI transaction asks for (R218): a read or a write, its address, and the bytes behind the address. -/
structure XspiFrame where
  read : Bool
  addr : Nat
  data : List Byte
  deriving DecidableEq, Repr

/-- The transaction that a host's bytes frame, dummy cycles left out: one command byte in 1S-1S-1S, two in 8D-8D-8D; then the
address, most significant byte first, [31:16] zero. Any other command is ignored (R218); a non-zero [31:16] is, too (log
entry 89). -/
def xspiFrame (mode8d : Bool) (bs : List Byte) : Option XspiFrame :=
  let op := if mode8d then (bs.take 2).map BitVec.toNat else (bs.take 1).map BitVec.toNat
  let rest := bs.drop (if mode8d then 2 else 1)
  let dir := if op = (if mode8d then [0xEE, 0x11] else [0x0B]) then some true
    else if op = (if mode8d then [0x12, 0xED] else [0x02]) then some false else none
  match dir with
  | none => none
  | some rd =>
    if rest.length < 4 then none
    else
      let a := ofLe (rest.take 4).reverse
      if 0x10000 ≤ a then none else some ⟨rd, a, rest.drop 4⟩

/-- The address of word `i` of a transaction: it advances by 8 and wraps within its 4 KiB region (R218). -/
def xspiAddr (a i : Nat) : Nat := a - a % 4096 + (a % 4096 + 8 * i) % 4096

/-- The rows that an xSPI write amounts to, in the order of its words: words of CMD_PORT enter the FIFO, and one that chip
select cuts is PARTIAL (R199, R219); other words are register writes, and a cut one is none. -/
def xspiWrite (fr : XspiFrame) : List Instr :=
  let n := cdiv fr.data.length 8
  let whole := fr.data.length / 8
  let ws := (List.range n).map fun i => BitVec.ofNat 64 (ofLe ((fr.data.drop (8 * i)).take 8))
  if 0x1000 ≤ fr.addr ∧ fr.addr < 0x2000 then
    [.cmdPortWrite ws (if whole < n then .partialWord whole else .good)]
  else (List.range whole).flatMap fun i => busWrite (BitVec.ofNat 16 (xspiAddr fr.addr i)) true (ws.getD i 0)

/-- The words that an xSPI read of `n` whole words at `a` returns, and the device after it (R193, R211, R214, R219). -/
def Device.xspiRead (d : Device) (now a : Nat) : Nat → List Word × Device
  | 0 => ([], d)
  | n + 1 =>
    let (ws, d) := d.xspiRead now a n
    let x := xspiAddr a n
    let w := d.regValue now x
    let d := if 0x2000 ≤ x ∧ x < 0x3000 then { d with port := d.port.readReply.2 }
      else if 0x3000 ≤ x ∧ x < 0x4000 then { d with ev := d.ev.read.2 }
      else d.readReg now x true
    (ws ++ [w], { d with port := { d.port with readData := ws ++ [w] } })

/-! ### Port resets (R192) -/

/-- PERST_RESET: PERST_N asserted, or a Function Level Reset (R191, R192). With the xSPI port active neither is the
host port's. -/
def execPerstReset (flr : Bool) (s : State) : Host.Outcome State Fault Refusal :=
  s.act fun now d =>
    let d := if flr then d else { d with aon := { d.aon with perstLow := some (d.aon.perstLow.getD now) } }
    if d.aon.bootSel || !d.portOn then d else d.portReset

/-! ### Interpretation -/

/-- The lead steward interprets: it runs, it has not demoted itself, and its lease has not lapsed (R409, R412). Before the
first grant after a reset of the hub the steward of half 0 leads. While the device is out of service the hub answers (R401). -/
def Device.interprets (d : Device) : Bool :=
  let x := d.hub.stewards.get Stew.init (b2n d.hub.leaseHalf)
  d.hub.oos || (!x.lost && !x.demoted && (d.hub.leaseHeld || d.hub.leaseEpoch == 0))

/-- A host command's row acts when the packet held by the interpreter is one of its opcode; the interpreter is then
free (R429). -/
def hostCmd (op : Nat) (s : State) (f : Nat → Packet → Device → Device) : Host.Outcome State Fault Refusal :=
  s.act fun now d =>
    match d.port.interp with
    | none => d
    | some p => if p.id.op = op && d.interprets then f now p { d with port := { d.port with interp := none } } else d

/-- The status of the first check that holds. -/
def firstFail : List (Bool × Nat) → Option Nat
  | [] => none
  | (b, st) :: l => if b then some st else firstFail l

/-- The answer of the first check that fails, or `k`. -/
def Device.checked (d : Device) (now : Nat) (id : CmdId) (l : List (Bool × Nat)) (k : Device → Device) : Device :=
  match firstFail l with
  | some st => d.answer now id st []
  | none => k d

/-- Word 1 or FLAGS set in a command that asks no work (R200, R221), or a wrong number of words. -/
def Packet.bad (p : Packet) (params : Nat) : Bool := p.w 1 != 0 || hdrFlags p.hdr != 0 || p.len != 3 + params

/-- Check 6 of a command whose number of words varies. -/
def Packet.badFlags (p : Packet) : Bool := p.w 1 != 0 || hdrFlags p.hdr != 0

/-- The power state does not serve the opcode (R374); before READY none is interpreted. -/
def Device.notServed (d : Device) (op : Nat) : Bool := d.pwr.state == .listen && !opcodesListen.contains op

/-- Any bit of `w` from `lo` up to `hi` is set: a reserved field that must be zero (R10). -/
def rsvBits (w : Word) (hi lo : Nat) : Bool := w.fld hi lo != 0

end Sys2Proof.Machine
end

