-- ==== Sys2Proof/Machine/Sectors.lean ====
section
/-! DEFINITION. The peat page as it lies on flash (R296–R298): sectors, their metadata and the BCH code that protects them. -/

namespace Sys2Proof.Machine

/-! ### The field and the code (R298) -/

/-- α times an element of GF(2^14), field polynomial x^14 + x^10 + x^6 + x + 1. -/
def gf14TimesA (x : Nat) : Nat := if 2 * x < 2 ^ 14 then 2 * x else 2 * x ^^^ 0x4443

/-- The product of two elements of GF(2^14), by the low `n` bits of the second. -/
def gf14MulGo : Nat → Nat → Nat → Nat
  | 0, _, _ => 0
  | n + 1, x, y => (if y % 2 = 1 then x else 0) ^^^ gf14MulGo n (gf14TimesA x) (y / 2)
def gf14Mul (x y : Nat) : Nat := gf14MulGo 14 x y

/-- α to the power `n`. -/
def gf14Pow : Nat → Nat
  | 0 => 1
  | n + 1 => gf14TimesA (gf14Pow n)

/-- A polynomial over GF(2^14), lowest coefficient first, times (x + β). -/
def mulRoot (β : Nat) (p : List Nat) : List Nat :=
  List.zipWith (· ^^^ ·) (0 :: p) (p.map (gf14Mul β) ++ [0])

/-- The product of (x + β) over β and its next `n - 1` conjugates. -/
def conjugates : Nat → Nat → List Nat → List Nat
  | 0, _, p => p
  | n + 1, β, p => conjugates n (gf14Mul β β) (mulRoot β p)

/-- The minimal polynomial of α^i for an odd `i` below 80, as a number whose bit k is the coefficient of x^k: it has 14 conjugates. -/
def minPoly (i : Nat) : Nat := (conjugates 14 (gf14Pow i) [1]).foldr (fun c a => c % 2 + 2 * a) 0

/-- The product of two polynomials over GF(2), by the low `n` bits of the second. -/
def clmul : Nat → Nat → Nat → Nat
  | 0, _, _ => 0
  | n + 1, x, y => (if y % 2 = 1 then x else 0) ^^^ clmul n (2 * x) (y / 2)

/-- The generator polynomial: α^2i has the minimal polynomial of α^i, so the least common multiple for α^1 to α^80 is the product for
the odd powers. -/
def bchGen : Nat := (List.range 40).foldl (fun g i => clmul 15 g (minPoly (2 * i + 1))) 1

/-- Degree of the generator: the parity bits. -/
def bchDegree : Nat := 560

/-- One bit enters the remainder. -/
def bchStep (g r : Nat) (bit : Bool) : Nat :=
  let x := 2 * r + (if bit then 1 else 0)
  if x < 2 ^ bchDegree then x else x ^^^ g

/-- The bits of bytes, byte 0 first, most significant bit first. -/
def msbBits (bs : List Byte) : List Bool := bs.flatMap fun b => (List.range 8).map fun i => b.getMsbD i

/-- The 70 parity bytes of a message: the remainder of m(x) · x^560 by the generator. -/
def bchParity (msg : List Byte) : List Byte :=
  let g := bchGen
  let r := (msbBits msg ++ List.replicate bchDegree false).foldl (bchStep g) 0
  (leBytes 70 r).reverse

/-- Bit errors of a codeword that the code corrects. -/
def bchCorrects : Nat := 40

/-! ### Sectors (R296, R297) -/

def sectorData : Nat := 1024
def sectorBytes : Nat := 1098
def pageSectors : Nat := 16

/-- The markers that stand for the LPN of journal pages and of boot-area pages (R297). -/
def journalMark : Nat := 0xFFFFFFFE
def bootMark : Nat := 0xFFFFFFFF

/-- The metadata of sector `s` (R297). -/
def sectorMeta (lpn seq s : Nat) (data : List Byte) : Nat := crc32c (leBytes 4 lpn ++ leBytes 8 seq ++ leBytes 1 s ++ data)

/-- Sector `s` as it is programmed. -/
def sector (lpn seq s : Nat) (data : List Byte) : List Byte :=
  let msg := data ++ leBytes 4 (sectorMeta lpn seq s data)
  msg ++ bchParity msg

/-- The bytes of a string from `k` on, exactly `n` of them, zeros beyond its end. -/
def chunk (bs : List Byte) (k n : Nat) : List Byte :=
  let c := (bs.drop k).take n
  c ++ List.replicate (n - c.length) 0

/-- The sectors of a logical page's 16 KiB. -/
def sectorsOf (lpn seq : Nat) (data : List Byte) : List (List Byte) :=
  (List.range pageSectors).map fun s => sector lpn seq s (chunk data (s * sectorData) sectorData)

/-- A physical page of `size` bytes as it is programmed: its sectors, then 0xFF, which is never read (R296). -/
def physImage (size : Nat) (sectors : List (List Byte)) : List Byte :=
  sectors.flatten ++ List.replicate (size - pageSectors * sectorBytes) 0xFF

/-- The data of sectors. -/
def sectorsData (sectors : List (List Byte)) : List Byte := sectors.flatMap fun x => x.take sectorData

/-- Every sector's metadata is what the LPN and SEQ expected give (R297). -/
def sectorsMatch (lpn seq : Nat) (sectors : List (List Byte)) : Bool :=
  sectors.zipIdx.all fun x =>
    (x.1.drop sectorData).take 4 == leBytes 4 (sectorMeta lpn seq x.2 (x.1.take sectorData))

end Sys2Proof.Machine
end

