-- ==== Sys2Proof/Machine/PeatOps.lean ====
section
/-! DEFINITION. Peat (R293–R308): logical and physical pages, the journal and its commits, and the programs and erases
that wait on the flash channels. -/

namespace Sys2Proof.Machine

/-! ### Geometry (R301; the parameter pages give it, log entry 7) -/

def pagesPerBlock : Nat := 1024
def blocksPerTarget : Nat := 256
def peatPageBytes : Nat := 16384
/-- Records of a journal page (R302). -/
def journalPage : Nat := 512

def physPage (ch tgt blk page : Nat) : Nat := ch * 2 ^ 30 + tgt * 2 ^ 27 + blk * pagesPerBlock + page
def physCh (ph : Nat) : Nat := ph / 2 ^ 30 % 4
def physTgt (ph : Nat) : Nat := ph / 2 ^ 27 % 8
def physBlk (ph : Nat) : Nat := ph % 2 ^ 27 / pagesPerBlock
def blockKey (ch tgt blk : Nat) : Nat := (ch * 8 + tgt) * 65536 + blk
def physKey (ph : Nat) : Nat := blockKey (physCh ph) (physTgt ph) (physBlk ph)

/-- A board record is valid: MAGIC, VERSION and CRC (R306). -/
def recordValid (ws : List Word) : Bool :=
  (wordAt ws 0).fld 31 0 == 0x6B0A7D21 && (wordAt ws 0).fld 47 32 == 1 && (wordAt ws 7).fld 31 0 == crc32c (wordsBytes (ws.take 7))

/-- The first copy of the boot image that decodes and whose board record is valid (R272, R306). -/
def Peat.goodCopy (p : Peat) : Option BootCopy := p.boots.find? fun c => c.decodes && recordValid c.board

/-- The first copy that yields a valid record and an Ubtur image whose signature verifies (R306). -/
def Peat.bootCopy (p : Peat) : Option BootCopy := p.boots.find? fun c => c.decodes && recordValid c.board && c.signed

/-- Fields of the board record (R306). -/
def Peat.hostPages (p : Peat) : Nat := (wordAt p.board 4).fld 31 0
def Peat.prodPages (p : Peat) : Nat := (wordAt p.board 4).fld 63 32
/-- A target is used: the board record names it, and READ ID and its parameter page passed at the last mount (R294). -/
def Peat.populated (p : Peat) (ch tgt : Nat) : Bool :=
  bitOf (wordAt p.board 3).toNat (8 * ch + tgt) && !p.rejected.contains (8 * ch + tgt)
def Peat.block (p : Peat) (k : Nat) : Block := p.blocks.get {} k
def Peat.modBlock (p : Peat) (k : Nat) (f : Block → Block) : Peat := { p with blocks := p.blocks.modify {} k f }
def Peat.good (p : Peat) (ch tgt blk : Nat) : Bool := !(p.block (blockKey ch tgt blk)).retired

/-- Blocks 0 and 1 of target 0 of channels 0 and 1 are the boot area. -/
def bootBlock (ch tgt blk : Nat) : Bool := ch < 2 && tgt == 0 && blk < 2
/-- The journal's blocks: the first 64 good blocks from block 2 of target 0, on channels 0 and 2. -/
def Peat.journalBlocks (p : Peat) (ch : Nat) : List Nat :=
  (((List.range blocksPerTarget).drop 2).filter fun b => p.good ch 0 b).take 64
/-- The usable blocks of a target, in ascending number. -/
def Peat.usable (p : Peat) (ch tgt : Nat) : List Nat :=
  if !p.populated ch tgt then []
  else
    let j := if tgt = 0 ∧ (ch = 0 ∨ ch = 2) then p.journalBlocks ch else []
    (List.range blocksPerTarget).filter fun b => p.good ch tgt b && !bootBlock ch tgt b && !j.contains b

/-- Good pages outside the boot and journal areas. -/
def Peat.goodPages (p : Peat) : Nat :=
  ((List.range 4).map fun c => ((List.range 8).map fun t => (p.usable c t).length).sum).sum * pagesPerBlock

/-- The free block that was erased least, the lowest on equal counts (R301). -/
def Peat.freeBlock (p : Peat) (ch tgt : Nat) : Option Nat :=
  let fs := (p.usable ch tgt).filter fun b =>
    let k := p.block (blockKey ch tgt b)
    k.next == 0 && !k.interrupted
  fs.foldl (fun best b => match best with
    | none => some b
    | some a => if (p.block (blockKey ch tgt b)).erases < (p.block (blockKey ch tgt a)).erases then some b else best) none

/-- The open block of a target, or a free block to open: a place for one more page. -/
def Peat.placeOn (p : Peat) (ch tgt : Nat) : Option Nat :=
  match p.openBlk.get none (8 * ch + tgt) with
  | some b => if (p.block (blockKey ch tgt b)).next < pagesPerBlock then some b else p.freeBlock ch tgt
  | none => p.freeBlock ch tgt

/-- Where a channel's next program goes: the first populated target that has room. -/
def Peat.place (p : Peat) (ch : Nat) : Option (Nat × Nat) :=
  (List.range 8).findSome? fun t => (p.placeOn ch t).map fun b => (t, b)

/-- Takes the next page of a block, which is then its target's open block. -/
def Peat.take (p : Peat) (ch tgt blk : Nat) : Nat × Peat :=
  let k := blockKey ch tgt blk
  (physPage ch tgt blk (p.block k).next,
    { p.modBlock k (fun b => { b with next := b.next + 1 }) with openBlk := p.openBlk.set none (8 * ch + tgt) (some blk) })

/-! ### Logical pages -/

/-- LPN of the device area (R305). -/
def devLpn (lpn : Nat) : Bool := 0xF8000000 ≤ lpn
/-- The two key-store pages (R432). -/
def keyStoreLpns : List Nat := [0xFE000000, 0xFE000001]

/-- The physical page that holds a logical page. -/
def Peat.lookup (p : Peat) (lpn : Nat) : Option Nat := if devLpn lpn then p.dev.get none lpn else p.map.get none lpn
def Peat.setMap (p : Peat) (lpn : Nat) (ph : Option Nat) : Peat :=
  if devLpn lpn then { p with dev := p.dev.set none lpn ph } else { p with map := p.map.set none lpn ph }

/-- The physical page that a logical page is read from. -/
def Peat.physOf (p : Peat) (lpn : Nat) : Option PhysPage := (p.lookup lpn).bind fun ph => p.pages.get none ph

/-- The data of a logical page; one never programmed, or released, reads as zeros (R299). -/
def Peat.readPage (p : Peat) (lpn : Nat) : List Byte :=
  match p.physOf lpn with
  | some pg => sectorsData pg.sectors
  | none => List.replicate peatPageBytes 0

/-- The metadata of a logical page is not that of the LPN and SEQ that the device expects (R297). -/
def Peat.misread (p : Peat) (lpn : Nat) : Bool :=
  match p.physOf lpn with
  | some pg => !sectorsMatch lpn (p.expect.get 0 lpn) pg.sectors
  | none => false

/-- A read of a logical page is uncorrectable: found so, or by its metadata (R299). -/
def Peat.unreadable (p : Peat) (lpn : Nat) : Bool := p.poison.get false lpn || p.misread lpn

/-- Logical pages that lie in a block: the live ones. -/
def Peat.live (p : Peat) (key : Nat) : List Nat :=
  (p.map ++ p.dev).filterMap fun e => if e.2.any fun ph => physKey ph == key then some e.1 else none

/-! ### The journal (R302, R303) -/

def jIntent : Nat := 0x01
def jDone : Nat := 0x02
def jRelease : Nat := 0x03
def jErased : Nat := 0x04
def jRetired : Nat := 0x05

/-- A journal record (R302). -/
def journalRec (seq lpn kind phys : Nat) : JRec :=
  let ws := [BitVec.ofNat 64 seq, mkWord [(lpn, 0), (kind, 32)], BitVec.ofNat 64 phys]
  ws ++ [BitVec.ofNat 64 (crc32c (wordsBytes ws))]

/-- Fields of a journal record. -/
def jLpn (r : JRec) : Nat := (wordAt r 1).fld 31 0
def jKind (r : JRec) : Nat := (wordAt r 1).fld 39 32
def jPhys (r : JRec) : Nat := (wordAt r 2).fld 31 0
def jSeq (r : JRec) : Nat := (wordAt r 0).toNat

/-- A journal commit is waiting, or under way, on a channel. -/
def Peat.commitWaits (p : Peat) (ch : Nat) : Bool := (p.queue.get [] ch).any fun o => o.kind == .commit

/-- A commit of the tail to both rings falls due: one waits on channels 0 and 2, ahead of other work there (R39). -/
def Peat.askCommit (p : Peat) (now : Nat) : Peat :=
  if p.appended = p.committed then p
  else
    [0, 2].foldl (fun p ch =>
      if p.commitWaits ch then p
      else { p with queue := p.queue.modify [] ch fun q => ⟨.commit, 0, 0, 0, [], now, 0, false, 0⟩ :: q }) p

/-- A record enters the tail; a full tail is committed (R303). -/
def Peat.append (p : Peat) (now seq lpn kind phys : Nat) : Peat :=
  let p := { p with tail := p.tail ++ [(now, journalRec seq lpn kind phys)], appended := p.appended + 1 }
  if journalPage ≤ p.tail.length then p.askCommit now else p

/-- Both rings hold the tail up to the lesser of what each holds. -/
def Peat.settle (p : Peat) : Peat :=
  let n := min (p.ringUpto.get 0 0) (p.ringUpto.get 0 2) - p.committed
  { p with tail := p.tail.drop n, committed := p.committed + n }

/-- Records in pages of 512. -/
def journalPages : Nat → Nat → List JRec → List JPage
  | 0, _, _ => []
  | n + 1, num, rs => if rs.isEmpty then [] else ⟨num, rs.take journalPage⟩ :: journalPages n (num + 1) (rs.drop journalPage)

/-- A journal page as it is programmed: its records, ended by all-ones records, under the LPN of journal pages (R296, R297, R302). -/
def JPage.sectors (j : JPage) : List (List Byte) :=
  sectorsOf journalMark 0 (wordsBytes (j.recs.flatten ++ List.replicate (4 * (journalPage - j.recs.length)) (BitVec.allOnes 64)))

/-- Pages of a ring: 64 blocks. -/
def ringPages : Nat := 64 * pagesPerBlock

/-- The number of a ring's next page. -/
def nextNum (r : List JPage) : Nat := ((r.getLast?).map fun j => j.num + 1).getD 0

/-- A ring takes pages; the block that the first page of a block needs is erased, with the oldest pages (R305). -/
def ringTake (r : List JPage) (js : List JPage) : List JPage :=
  let all := r ++ js
  let next := nextNum all
  all.filter fun j => decide (cdiv next pagesPerBlock * pagesPerBlock ≤ j.num + ringPages)

/-- Ring `ch` takes the tail up to record `upto`. -/
def Peat.ringCommit (p : Peat) (ch upto : Nat) : Peat :=
  let from_ := p.ringUpto.get 0 ch
  let rs := ((p.tail.drop (from_ - p.committed)).take (upto - from_)).map (·.2)
  let r := p.rings.get [] ch
  { p with rings := p.rings.set [] ch (ringTake r (journalPages rs.length (nextNum r) rs)), ringUpto := p.ringUpto.set 0 ch (max from_ upto) }

/-! ### Work for the flash channels -/

/-- The channel of a logical page's programs: that of R307, or the next channel with a populated target. -/
def Peat.channelOf (p : Peat) (lpn : Nat) : Nat :=
  let ok (c : Nat) : Bool := (List.range 8).any fun t => p.populated c t
  ((List.range 4).map fun i => (lpn + i) % 4).find? ok |>.getD (lpn % 4)

/-- A program of a logical page joins its channel's queue, with the next program number. -/
def Peat.queueProgram (p : Peat) (now lpn : Nat) (data : List Byte) : Peat :=
  { p with
    queue := p.queue.modify [] (p.channelOf lpn) fun q => q ++ [⟨.program, lpn, 0, 0, data, now, 0, false, p.opNext⟩]
    opNext := p.opNext + 1 }

/-- A logical page's program is waiting or under way. -/
def Peat.programming (p : Peat) (lpn : Nat) : Bool :=
  (List.range 4).any fun c => ((p.busy.get none c).toList ++ p.queue.get [] c).any fun o => o.kind == .program && o.lpn == lpn

/-- Programs of a page that wait or run when the page is released: it is released again after them. -/
def Peat.outdate (p : Peat) (lpn : Nat) : Peat :=
  let mark (o : FlashOp) : FlashOp := if o.kind = .program ∧ o.lpn = lpn then { o with dead := true } else o
  { p with queue := p.queue.map fun e => (e.1, e.2.map mark), busy := p.busy.map fun e => (e.1, e.2.map mark) }

/-- A logical page is released (R301): its contents are gone and it reads as zeros. -/
def Peat.release (p : Peat) (now lpn : Nat) : Peat :=
  match p.lookup lpn with
  | none => { p with poison := p.poison.set false lpn false }
  | some ph =>
    let p := { p with seq := p.seq + 1, poison := p.poison.set false lpn false,
                      rereads := p.rereads.set 0 lpn 0 }
    (p.setMap lpn none).append now p.seq lpn jRelease ph

/-- Live pages of a block are programmed elsewhere (R301). -/
def Peat.relocate (p : Peat) (now key : Nat) : Peat :=
  (p.live key).foldl (fun p l => if p.programming l then p else p.queueProgram now l (p.readPage l)) p

def Device.modPeat (d : Device) (f : Peat → Peat) : Device := { d with peat := f d.peat }

/-! ### Replies that wait (R303) -/

/-- A key-store write takes effect (R432): keys, counter, and the tenancy that TENANT_OPEN waited to enter (R423). -/
def Device.commitKeys (d : Device) (w : KsWrite) : Device :=
  let d := { d with sec := { d.sec with ownerKey := w.owner, kin := w.kin, lastCounter := w.counter } }
  match w.tenant with
  | none => d
  | some (t, k) => { d with ten := { Tenant.init with state := .open_, id := t, key := some k } }

/-- A reply that waits may go: its programs are done and its records committed. -/
def PeatWait.ready (p : Peat) (w : PeatWait) : Bool := w.left.isEmpty && decide (w.need ≤ p.committed)

/-- Replies whose journal commit is complete are sent, in the order in which their commands were taken. -/
def Device.peatReplies (d : Device) (now : Nat) : Device :=
  let go := d.peat.waits.filter (·.ready d.peat)
  let d := d.modPeat fun p => { p with waits := p.waits.filter fun w => !w.ready p }
  forEach d go fun d w =>
    if w.failed then d.answer now w.id stFaulted [BitVec.ofNat 64 w.done]
    else
      let d := match w.ks with
        | some k => d.commitKeys k
        | none => d
      d.answer now w.id stOk w.words

/-- A reply waits for the programs of `left` and for the commit of every record appended with them. -/
def Device.peatWait (d : Device) (now : Nat) (w : PeatWait) : Device :=
  let w := { w with need := d.peat.appended }
  let d := d.modPeat fun p => { p with waits := p.waits ++ [w] }
  let d := if w.left.isEmpty then d.modPeat (·.askCommit now) else d
  d.peatReplies now

/-- Program `op` of a wait is done. -/
def PeatWait.pageDone (w : PeatWait) (op appended : Nat) : PeatWait :=
  if w.left.contains op then { w with left := w.left.erase op, done := w.done + 1, need := appended } else w

/-- The key store as the last write under way leaves it. -/
def Device.keyStore (d : Device) : KsWrite :=
  match (d.peat.waits.filterMap (·.ks)).getLast? with
  | some k => { k with tenant := none }
  | none => ⟨d.sec.ownerKey, d.sec.kin, d.sec.lastCounter, none⟩

/-- The data of a key-store page (R432). -/
def KsWrite.page (k : KsWrite) : List Byte :=
  let o := k.owner.getD (0, 0)
  Config.keyStorePage (b2n k.owner.isSome :: o.1 :: o.2 :: k.counter :: k.kin.flatMap fun e => [e.1, e.2])

/-- A key-store write begins: both copies are programmed through the journal (R432). -/
def Device.writeKeys (d : Device) (now : Nat) (id : CmdId) (k : KsWrite) (words : List Word) : Device :=
  let ids := rangeFrom d.peat.opNext keyStoreLpns.length
  let d := d.modPeat fun p => keyStoreLpns.foldl (fun p l => p.queueProgram now l k.page) p
  d.peatWait now ⟨id, ids, 0, 0, words, some k, false⟩

/-! ### Promises and the flash channels (R37) -/

/-- Some outstanding M counts a peat read; it then counts one on every channel (R37). -/
def Device.peatPromised (d : Device) : Bool := (List.range 16).any fun p => (d.part p).allItems.any (·.peat)

/-- Nanoseconds left of a channel's open window. -/
def Device.windowLeft (d : Device) (now ch : Nat) : Nat :=
  match d.peat.windows.get .none ch with
  | .opened t => t + 12000000 - now
  | _ => 0

/-- A program or erase may issue now (R37): no outstanding M counts a peat read, or enough of a window remains. -/
def Device.mayIssue (d : Device) (now ch : Nat) (k : FlashKind) : Bool :=
  !d.peatPromised || decide ((match k with | .erase => 10500000 | _ => 1200000) ≤ d.windowLeft now ch)

/-- Flash channels are powered and not stopped by a loss of supply (R370, R449). -/
def Device.flashOn (d : Device) : Bool := d.aon.gpio1 && d.pwr.pfail.isNone && d.peat.mounted

/-- The port of a channel that asks for an operation (R39). -/
def FlashKind.port : FlashKind → Nat
  | .commit => 0
  | _ => 2

/-! ### Device-area pages (R305) -/

/-- The map page, by LPN, that covers a logical page. -/
def mapLpn (lpn : Nat) : Nat := 0xF8000000 + lpn / 4096
def isMapPage (lpn : Nat) : Bool := decide (0xF8000000 ≤ lpn) && decide (lpn < 0xF8008000)
def isTablePage (lpn : Nat) : Bool := decide (0xFC000000 ≤ lpn) && decide (lpn < 0xFC000400)

/-- PHYS of a map page's entry for an unmapped page. -/
def unmapped : Nat := 0xFFFFFFFF

/-- The data of a map page: the PHYS of each of its 4,096 logical pages. -/
def Peat.mapPage (p : Peat) (lpn : Nat) : List Byte :=
  (List.range 4096).flatMap fun k => leBytes 4 ((p.map.get none (4096 * (lpn - 0xF8000000) + k)).getD unmapped)

/-- The data of a table page: for each block in the order of channel, target and block its erase count and, in bit 31, whether it
is retired. DESIGN CHOICE (log entry 105): R305 gives the contents and no layout. -/
def Peat.tablePage (p : Peat) (lpn : Nat) : List Byte :=
  (List.range 4096).flatMap fun k =>
    let i := 4096 * (lpn - 0xFC000000) + k
    let b := p.block (blockKey (i / 2048) (i / 256 % 8) (i % 256))
    leBytes 4 (b.erases % 2 ^ 31 + b2n b.retired * 2 ^ 31)

/-- What a program writes: map and table pages as they stand when it issues, other pages their data. -/
def Peat.opData (p : Peat) (op : FlashOp) : List Byte :=
  if isMapPage op.lpn then p.mapPage op.lpn else if isTablePage op.lpn then p.tablePage op.lpn else op.data

/-- Device-area pages that a journal block's end calls for (R305): those whose newest DONE lies before page `limit` of a ring, and, as
the data pages' records there are lost with it, the map pages of those that no map page yet covers (log entry 111). -/
def Peat.endangered (p : Peat) (r : List JPage) (limit : Nat) : List Nat :=
  let newest (l : Nat) : Option Nat :=
    (r.reverse.find? fun j => j.recs.any fun x => jLpn x == l && jKind x == jDone).map (·.num)
  let dev := p.dev.filterMap fun e => if e.2.isSome && (newest e.1).any (fun n => decide (n < limit)) then some e.1 else none
  let maps := ((r.filter fun j => decide (j.num < limit)).flatMap fun j => j.recs.filterMap fun x =>
    if (jKind x == jDone || jKind x == jRelease) && !devLpn (jLpn x) && (p.dev.get none (mapLpn (jLpn x))).isNone
    then some (mapLpn (jLpn x)) else none)
  (dev ++ maps.eraseDups).filter fun l => !p.programming l

/-- The device-area pages that must not be lost with the ring block that is erased next are programmed again before it is (R305). -/
def Peat.saveDevice (p : Peat) (now ch : Nat) : Peat :=
  let r := p.rings.get [] ch
  if nextNum r + 2 * pagesPerBlock ≤ ringPages then p
  else (p.endangered r (nextNum r + 2 * pagesPerBlock - ringPages)).foldl (fun p l => p.queueProgram now l (p.readPage l)) p

/-! ### Programs, commits and erases (R301, R303) -/

/-- The first waiting operation of channel `c` starts. A map page is not written while another program is under way: its
content must hold every DONE of a lower SEQ. -/
def Device.startOp (d : Device) (now c : Nat) : Device :=
  match d.peat.queue.get [] c with
  | [] => d
  | op :: rest =>
    let p := { d.peat with queue := d.peat.queue.set [] c rest }
    match op.kind with
    | .commit => d.modPeat fun _ => { p with busy := p.busy.set none c (some { op with seq := p.appended, started := now }) }
    | .erase => d.modPeat fun _ => { p with busy := p.busy.set none c (some { op with started := now }) }
    | .program =>
      match p.place c with
      | none => d
      | some (t, b) =>
        let (ph, p) := p.take c t b
        let p := { p with seq := p.seq + 1 }
        let p := p.append now p.seq op.lpn jIntent ph
        let run := { op with phys := ph, seq := p.seq, data := p.opData op, started := now }
        d.modPeat fun _ => { p with busy := p.busy.set none c (some run) }

/-- The channel holds or may hold its first waiting operation: R37 permits it, flash works, nothing else runs there. -/
def Device.opReady (d : Device) (now c : Nat) : Bool :=
  match d.peat.queue.get [] c with
  | [] => false
  | op :: _ => d.flashOn && (d.peat.busy.get none c).isNone && d.mayIssue now c op.kind
      && (!isMapPage op.lpn || op.kind != .program || d.peat.busy.all fun e => e.2.isNone)
      && (op.kind != .program || (d.peat.place c).isSome)

/-- A retirement keeps enough good pages (R301). -/
def Peat.mayRetire (p : Peat) : Bool :=
  decide (p.hostPages + p.allocPages + 256 * pagesPerBlock ≤ p.goodPages - pagesPerBlock)

/-- A block is retired: recorded, and its live pages relocated (R301). -/
def Peat.retire (p : Peat) (now ph : Nat) : Peat :=
  let k := physKey ph
  let first := physPage (physCh ph) (physTgt ph) (physBlk ph) 0
  let p := (p.modBlock k fun b => { b with retired := true })
  let p := { p with retiredBlocks := p.retiredBlocks + 1, seq := p.seq + 1
                    openBlk := p.openBlk.modify none (8 * physCh ph + physTgt ph) fun o => if o = some (physBlk ph) then none else o }
  (p.append now p.seq 0 jRetired first).relocate now k

/-- The program of `op` passed (R303): DONE, and the map changes to the new page; a poisoned logical page is mended. -/
def Peat.programmed (p : Peat) (now : Nat) (op : FlashOp) : Peat :=
  let p := { p with pages := p.pages.set none op.phys (some ⟨sectorsOf op.lpn op.seq op.data⟩)
                    expect := p.expect.set 0 op.lpn op.seq
                    poison := p.poison.set false op.lpn false, rereads := p.rereads.set 0 op.lpn 0 }
  (p.setMap op.lpn (some op.phys)).append now op.seq op.lpn jDone op.phys

/-- The allocation page whose stored image holds a logical page. -/
def Peat.pageOfLpn (p : Peat) (lpn : Nat) : Option Nat :=
  (p.cells.find? fun e => match e.2 with
    | some (f, n) => decide (f ≤ lpn) && decide (lpn < f + n)
    | none => false).map (·.1)

/-- A wait whose program was refused ends FAULTED, with the pages completed, after the commit of their records (R261, R303). -/
def Peat.failWaits (p : Peat) (op : Nat) : Peat :=
  { p with waits := p.waits.map fun w =>
      if w.left.contains op then { w with left := [], need := p.appended, failed := true } else w }

/-- Replies whose programs are done ask for the commit they wait for, or go. -/
def Device.commitWaits (d : Device) (now : Nat) : Device :=
  let d := if d.peat.waits.any fun w => w.left.isEmpty && decide (d.peat.committed < w.need) then d.modPeat (·.askCommit now) else d
  d.peatReplies now

/-- PEAT_PROGRAM_DONE: the program or journal commit under way on a channel reports its status (R301, R303). A failed commit
retires its block of the ring, whose place the next good block takes, and is repeated. -/
def execPeatProgramDone (ch : FlashCh) (ok : Bool) (s : State) : Host.Outcome State Fault Refusal :=
  s.act fun now d =>
    let c := ch.toNat
    match d.peat.busy.get none c with
    | none => d
    | some op =>
      let idle := d.modPeat fun p => { p with busy := p.busy.set none c none }
      let again (p : Peat) : Peat := { p with queue := p.queue.modify [] c fun q => { op with phys := 0, seq := 0 } :: q }
      match op.kind with
      | .erase => d
      | .commit =>
        if ok then (idle.modPeat fun p => ((p.ringCommit c op.seq).settle).saveDevice now c).peatReplies now
        else idle.modPeat fun p =>
          let blk := (p.journalBlocks c).getD (nextNum (p.rings.get [] c) / pagesPerBlock % 64) 0
          again (if p.mayRetire then p.retire now (physPage c 0 blk 0) else p)
      | .program =>
        if ok then
          let d := idle.modPeat fun p => let q := p.programmed now op; if op.dead then q.release now op.lpn else q
          (d.modPeat fun p => { p with waits := p.waits.map fun w => w.pageDone op.id p.appended }).commitWaits now
        else if d.peat.mayRetire then idle.modPeat fun p => again (p.retire now op.phys)
        else (idle.modPeat fun p => p.failWaits op.id).commitWaits now

/-- PEAT_ERASE_DONE: the erase under way on a channel reports its status (R301). -/
def execPeatEraseDone (ch : FlashCh) (ok : Bool) (s : State) : Host.Outcome State Fault Refusal :=
  s.act fun now d =>
    let c := ch.toNat
    match d.peat.busy.get none c with
    | none => d
    | some op =>
      if op.kind ≠ .erase then d
      else d.modPeat fun p =>
        let p := { p with busy := p.busy.set none c none }
        if ok then
          let p := { p.modBlock (physKey op.phys) (fun b =>
              { b with erases := b.erases + 1, next := 0, relocate := false, interrupted := false }) with
            seq := p.seq + 1, pages := p.pages.filter fun e => physKey e.1 ≠ physKey op.phys }
          p.append now p.seq 0 jErased op.phys
        else if p.mayRetire then p.retire now op.phys
        else p

/-- A block has pages programmed and none of them live, and is not its target's open block: it may be erased (R301). -/
def Peat.spent (p : Peat) (ph : Nat) : Bool :=
  let b := p.block (physKey ph)
  ((p.usable (physCh ph) (physTgt ph)).contains (physBlk ph)) && (b.next != 0 || b.interrupted) && (p.live (physKey ph)).isEmpty
    && p.openBlk.get none (8 * physCh ph + physTgt ph) != some (physBlk ph)

/-- An erase of the block waits or is under way. -/
def Peat.erasing (p : Peat) (ph : Nat) : Bool :=
  let c := physCh ph
  ((p.busy.get none c).toList ++ p.queue.get [] c).any fun o => o.kind == .erase && physKey o.phys == physKey ph

/-- BLOCK_ERASE_START: the background erase of a block whose pages have all been superseded begins to wait for its
channel. The block is named by its first page (R302). -/
def execBlockEraseStart (block : BitVec 32) (s : State) : Host.Outcome State Fault Refusal :=
  s.act fun now d =>
    let first := physPage (physCh block.toNat) (physTgt block.toNat) (physBlk block.toNat) 0
    if d.flashOn && d.peat.spent first && !d.peat.erasing first then
      d.modPeat fun p => { p with queue := p.queue.modify [] (physCh first) fun q => q ++ [⟨.erase, 0, first, 0, [], now, 0, false, 0⟩] }
    else d

/-- JOURNAL_TAIL_TIMER: 100 ms after its oldest uncommitted record the tail falls due (R303). -/
def execJournalTailTimer (s : State) : Host.Outcome State Fault Refusal :=
  s.act fun now d =>
    match d.peat.tail with
    | [] => d
    | (t, _) :: _ => if t + 100000000 ≤ now then d.modPeat (·.askCommit now) else d

/-! ### PEAT_PROGRAM and PEAT_ERASE (R261) -/

/-- The range holds a page of a loaded weave's image (R236). -/
def Device.imageHolds (d : Device) (first n : Nat) : Bool :=
  d.ten.weaves.any fun e => match e.2 with
    | some w => w.srcSlot.isNone && decide (first < w.srcPage + w.srcPages) && decide (w.srcPage < first + n)
    | none => false

/-- PEAT_PROGRAM (R261). -/
def execPeatProgram (s : State) : Host.Outcome State Fault Refusal :=
  hostCmd 0x70 s fun now p d =>
    let first := (p.w 2).fld 31 0
    let n := (p.w 2).fld 47 32
    d.checked now p.id
      [(p.bad (1 + 2048 * n) || n == 0 || decide (64 < n) || rsvBits (p.w 2) 63 48
          || decide (d.peat.hostPages < first + n), stBadParam),
       (d.notServed 0x70 || d.imageHolds first n, stRefusedState)]
      fun d =>
        let lpns := rangeFrom first n
        let ids := rangeFrom d.peat.opNext n
        let d := d.modPeat fun q => lpns.foldl (fun q l =>
          q.queueProgram now l (wordsBytes ((p.words.drop (3 + 2048 * (l - first))).take 2048))) q
        d.peatWait now ⟨p.id, ids, 0, 0, [BitVec.ofNat 64 n], none, false⟩

/-- PEAT_ERASE (R261). -/
def execPeatErase (s : State) : Host.Outcome State Fault Refusal :=
  hostCmd 0x71 s fun now p d =>
    let first := (p.w 2).fld 31 0
    let n := (p.w 2).fld 47 32
    d.checked now p.id
      [(p.bad 1 || n == 0 || rsvBits (p.w 2) 63 48 || decide (d.peat.hostPages < first + n), stBadParam),
       (d.notServed 0x71 || d.imageHolds first n, stRefusedState)]
      fun d =>
        let d := d.modPeat fun q => (rangeFrom first n).foldl (fun q l => (q.outdate l).release now l) q
        d.peatWait now ⟨p.id, [], 0, 0, [BitVec.ofNat 64 n], none, false⟩

end Sys2Proof.Machine
end

