-- ==== Sys2Proof/Machine/Mere.lean ====
section
/-! DEFINITION. The meres (R102, R172–R175, R277, R430): resident lines, fills that several reads share, least-recently-used
replacement and the write-back of a dirty line whose frame is needed. A line is numbered page × 512 + line in the page. -/

namespace Sys2Proof.Machine

/-- Mere frames of a half (R163). -/
def mereFrames : Nat := 768

/-- Mere frames that an allocation holds: one a page when pinned or a bound map, and its window reservation. -/
def Alloc.frames (a : Alloc) : Nat := (if flagPin a.flags || a.map then a.pages else 0) + a.windowFrames

/-- Frames of a half held by pinned, map and window frames. -/
def Device.framesUsed (d : Device) (h : Nat) : Nat :=
  ((d.allocs.filter fun e => halfNum (flagHalf e.2.flags) == h).map (·.2.frames)).sum

/-- Sets of 16 lines in the cache of a half: the frames that nothing reserves (R172). -/
def Device.cacheSets (d : Device) (h : Nat) : Nat := (mereFrames - d.framesUsed h) * 32

/-- The line lies in a reserved frame, which the cache does not replace: pinned, a bound map's, or a window's. -/
def Device.reservedLine (d : Device) (line : Nat) : Bool :=
  d.mem.window.get false (line / 512) || match d.ownerOf (line / 512) with
    | some (_, a) => flagPin a.flags || a.map
    | none => false

/-- The cache line of a full set that was used least recently. -/
def Device.victim (d : Device) (h : Bool) (line : Nat) : Option Nat :=
  let sets := d.cacheSets (halfNum h)
  let same := d.mem.cached.filter fun e => e.1 == h && e.2 % sets == line % sets && !d.reservedLine e.2
  if same.length < 16 then none else (same.getLast?).map (·.2)

/-! ### Homes (R174, R176, R183, R190) -/

/-- A page of a WRITE_BACK allocation is home once none of its lines is dirty: its bit clears (R175). -/
def Mem.pageClean (m : Mem) (page : Nat) : Mem :=
  if m.dirty.any fun e => e.1 / 512 == page then m
  else if m.staged.get false page then m else { m with dirtyPages := m.dirtyPages.set false page false }

/-- The physical page that holds a page's lines: its home, or while it is staged its staging page (R176). -/
def Device.physOf (d : Device) (page : Nat) : Nat :=
  Config.homePage (if d.mem.staged.get false page then 2 ^ 22 + page else page)

/-- ELEM of a page's previous image, or 0 (R190). -/
def Mem.elem (m : Mem) (page : Nat) : Nat :=
  match m.form.get .fresh page with
  | .plait img => byteAt img 3 % 4
  | _ => 0

/-- The image that the device's encoder makes of a page, or none for the raw form (R183, R190). -/
def Device.pageImage (d : Device) (a : Alloc) (page : Nat) : Option (List Byte) :=
  if flagPlait a.flags then
    plaitEncode (a.folded page) (d.mem.elem page) (d.readBytes a ((page - a.p0) * pageBytes) pageBytes)
  else none

/-- The form that an image, or none, is held in. -/
def formOf : Option (List Byte) → PageForm
  | none => .raw
  | some img => .plait img

/-- Lines that a page takes at a DRAM home when it moves whole (R184). -/
def PageForm.lines : PageForm → Nat
  | .fresh => 0
  | .raw => 512
  | .plait img => cdiv img.length 128

def Device.setForm (d : Device) (page : Nat) (f : PageForm) : Device :=
  { d with mem := { d.mem with form := d.mem.form.set .fresh page f } }

/-- A PLAIT page is written whole to DRAM: its image is decoded, the dirty lines merged in, and a new image encoded (R174). An image
in error poisons the page (R189). -/
def Device.encodeHome (d : Device) (now : Nat) (a : Alloc) (page : Nat) : Device :=
  match d.unreadPage a page 0 pageBytes with
  | some u => ({ d with mem := { d.mem with poison := d.mem.poison.set false page true } } : Device).logUnread now none none u
  | none => d.setForm page (formOf (d.pageImage a page))

/-- Horizon of steward housekeeping and of a write-back that serves no transfer (R36, R278). -/
def stewardLst (now : Nat) : Nat := lstOf now (now + 100000)

/-- A dirty line leaves its frame: written to DRAM; in a PLAIT allocation its page is read, merged, encoded and written whole, and
every dirty line of it is clean (R174). -/
def Device.writeBack (d : Device) (now line : Nat) : Device :=
  if !d.mem.dirty.get false line then d
  else match d.ownerOf (line / 512) with
    | none => d
    | some (_, a) =>
      let page := line / 512
      let h := halfNum (flagHalf a.flags)
      let job : Job := ⟨none, none, .landing⟩
      if flagPlait a.flags then
        let e := d.encodeHome now a page
        let e := { e with mem := (e.mem.cleanLines page 1).pageClean page }
        e.requests now (dramFirst h (d.physOf page) 1 (d.mem.form.get .fresh page).lines
          ++ dramFirst h (d.physOf page) 1 (e.mem.form.get .fresh page).lines) (stewardLst now) job
      else
        let e := { d with mem := ({ d.mem with dirty := d.mem.dirty.set false line false } : Mem).pageClean page }
        e.request now [dramLine h (d.physOf page) 1 (line % 512)] (stewardLst now) job

/-! ### Frames (R119, R172) -/

/-- A line becomes the most recently used, taking the place of a victim where its set is full. Where every frame is reserved, it
is not kept, and a dirty one goes home at once. -/
def Device.useLine (d : Device) (now : Nat) (h : Bool) (line : Nat) : Device :=
  if d.mem.full.get false (line / 512) then d
  else if d.mem.cached.contains (h, line) then
    { d with mem := { d.mem with cached := (h, line) :: d.mem.cached.erase (h, line) } }
  else if !d.reservedLine line && d.cacheSets (halfNum h) == 0 then d.writeBack now line
  else
    let d := match if d.reservedLine line then none else d.victim h line with
      | none => d
      | some v =>
        let d := d.writeBack now v
        { d with mem := { d.mem with cached := d.mem.cached.erase (h, v) } }
    { d with mem := { d.mem with cached := (h, line) :: d.mem.cached } }

/-- Lines of a page become the most recently used in turn. -/
def Device.useLines (d : Device) (now : Nat) (h : Bool) (page : Nat) (ls : List Nat) : Device :=
  forEach d ls fun d l => d.useLine now h (page * 512 + l)

/-- The cache of a half is cut to the frames that are left: in each set the 16 lines used last stay, and the others go home. -/
def Device.refit (d : Device) (now : Nat) (h : Bool) : Device :=
  let sets := d.cacheSets (halfNum h)
  let stays (kept : List (Bool × Nat)) (e : Bool × Nat) : Bool :=
    e.1 != h || d.reservedLine e.2
      || (sets != 0 && decide ((kept.filter fun k => k.1 == h && k.2 % sets == e.2 % sets && !d.reservedLine k.2).length < 16))
  let kept := d.mem.cached.foldl (fun k e => if stays k e then k ++ [e] else k) []
  let gone := d.mem.cached.filter fun e => !kept.contains e
  let d := forEach d gone fun d e => d.writeBack now e.2
  { d with mem := { d.mem with cached := kept } }

/-- Every line of a page lies in its reserved frame. -/
def Device.fillFrame (d : Device) (h : Bool) (page : Nat) : Device :=
  { d with mem := { d.mem with
    full := d.mem.full.set false page true
    cached := d.mem.cached.filter fun e => !(e.1 == h && e.2 / 512 == page) } }

/-! ### Reads (R102, R134, R168, R187, R277, R300) -/

/-- A partition's counters of lines and bursts (R430). -/
def Device.countMiss (d : Device) (now : Nat) (part : Option Nat) (misses bursts peat : Nat) : Device :=
  match part with
  | none => d
  | some p => d.modPart p fun q => { q with
      mereMiss := q.mereMiss.bump now misses, dramBursts := q.dramBursts.bump now bursts, peatReads := q.peatReads.bump now peat }

/-- Lines of an image that a block takes: the index line of its entry, and those of its payload (R187). -/
def blockLines (img : List Byte) (b : Nat) : List Nat × List Nat :=
  let o := leAt img (16 + 2 * b) 2
  ([(16 + 2 * b) / 128],
    if plaitCount img ≤ b then []
    else
      let n := ((plaitPayload (plaitElem img) (img.drop o)).map (·.2)).getD 1
      rangeFrom (o / 128) ((o + n - 1) / 128 - o / 128 + 1))

/-- What a fill takes at the home of a page: lines of a physical page of DRAM, and peat pages. -/
structure HomeRead where
  phys : Nat
  lines : List Nat
  lpns : List Nat
  deriving DecidableEq, Repr

/-- What the fill of lines `l` to `l + n - 1` of a page takes. A page that moves whole takes its stored image (R184, R186); of a
page in plait form, a block takes its index line and its payload, and in peat the peat page of the payload (R187). -/
def Device.homeRead (d : Device) (a : Alloc) (page l n : Nat) : HomeRead :=
  let form := d.mem.form.get .fresh page
  let ls := rangeFrom l n
  if d.mem.staged.get false page then ⟨d.physOf page, ls, []⟩
  else
    let blocks (img : List Byte) : List (List Nat × List Nat) := (rangeFrom (l / 2) (cdiv n 2)).map (blockLines img)
    let first := ((d.peat.cells.get none page).map (·.1)).getD 0
    if a.peat then
      match form with
      | .plait img =>
        if n = 512 then ⟨0, [], rangeFrom first (imagePages (some img))⟩
        else ⟨Config.homePage (2 ^ 23 + page), ((blocks img).flatMap (·.1)).eraseDups,
          ((blocks img).flatMap fun b => (b.2.take 1).map fun x => first + x / 128).eraseDups⟩
      | _ => ⟨0, [], (ls.map fun x => first + x / 128).eraseDups⟩
    else match form with
      | .plait img =>
        if n = 512 then ⟨d.physOf page, List.range form.lines, []⟩
        else ⟨d.physOf page, ((blocks img).flatMap fun b => b.1 ++ b.2).eraseDups, []⟩
      | _ => ⟨d.physOf page, ls, []⟩

/-- Whom a read serves: partition, core, latest-service time. -/
structure Asker where
  part : Option Nat
  core : Option Nat
  lst : Nat
  deriving DecidableEq, Repr

/-- A fill of lines of a page starts: it asks the memory ports for each line and the flash channels for each peat page that no
other fill has asked for, and then its mere slices. -/
def Device.startFill (d : Device) (now : Nat) (w : Asker) (a : Alloc) (page l n : Nat) : Device :=
  let hb := flagHalf a.flags
  let h := halfNum hb
  let x := d.homeRead a page l n
  let lpns := x.lpns.filter fun p => (d.peat.lookup p).isSome
  let new := lpns.filter fun p => !d.mem.fills.any fun f => f.lpns.contains p
  let job (k : Xfer) : Job := ⟨w.part, w.core, k⟩
  let d : Device := { d with mem := { d.mem with fills := d.mem.fills ++ [⟨hb, page * 512 + l, n, 1, lpns⟩] } }
  let dram := if lpns.isEmpty then dramLines h x.phys 1 x.lines ++ (sliceHops h 0 (rangeFrom l n)).map fun s => [s]
    else dramLines h x.phys 1 x.lines
  let d := d.requests now dram w.lst (job (.fill hb (page * 512 + l)))
  let d := forEach d new fun d p =>
    d.request now (hop .flashChannel (physCh ((d.peat.lookup p).getD 0)) 1 2 :: sliceHops h 0 (rangeFrom l n)) w.lst
      (job (.peatRead p))
  d.countMiss now w.part 0 (2 * x.lines.length) new.length

/-- The fills that must start for the absent lines of a page: a page wanted whole moves whole when none of it is there or when it
is in plait form; a block in plait form is filled whole; other lines one by one (R134, R163). -/
def fillUnits (plait : Bool) (want absent : List Nat) : List (Nat × Nat) :=
  if want.length = 512 && (plait || absent.length = 512) then [(0, 512)]
  else if plait then ((absent.map (· / 2)).eraseDups).map fun b => (2 * b, 2)
  else absent.map fun l => (l, 1)

/-- Lines of a page are read: those in the mere at once, those of a fill under way by that fill, the others by fills that
start (R102). A page never written reads as zeros without an access (R168). -/
def Device.readLines (d : Device) (now : Nat) (w : Asker) (page : Nat) (ls : List Nat) : Device :=
  match d.ownerOf page with
  | none => d
  | some (_, a) =>
    let h := flagHalf a.flags
    let has (f : Fill) (l : Nat) : Bool :=
      f.half == h && decide (f.line ≤ page * 512 + l) && decide (page * 512 + l < f.line + f.count)
    let absent := ls.filter fun l => !d.resident h (page * 512 + l)
    let here := ls.filter fun l => d.resident h (page * 512 + l)
    let d := (d.useLines now h page here).countMiss now w.part absent.length 0 0
    if d.mem.form.get .fresh page == .fresh && !d.mem.staged.get false page then d.useLines now h page absent
    else
      let rest := absent.filter fun l => !d.mem.fills.any fun f => has f l
      let d := { d with mem := { d.mem with fills := d.mem.fills.map fun f =>
        { f with waiters := f.waiters + (absent.filter fun l => has f l).length } } }
      let plait := match d.mem.form.get .fresh page with | .plait _ => !d.mem.staged.get false page | _ => false
      forEach d (if rest.isEmpty then [] else fillUnits plait ls rest) fun d u => d.startFill now w a page u.1 u.2

/-- Some of these lines of a page are still on their way (R102). -/
def Device.filling (d : Device) (page : Nat) (ls : List Nat) : Bool :=
  d.mem.fills.any fun f => ls.any fun l => decide (f.line ≤ page * 512 + l) && decide (page * 512 + l < f.line + f.count)

/-- A fill is over: its lines lie in the mere, and every read that waited is served. -/
def Device.endFill (d : Device) (now : Nat) (f : Fill) : Device :=
  let d := { d with mem := { d.mem with fills := d.mem.fills.erase f } }
  if f.count = 512 && d.reservedLine f.line then d.fillFrame f.half (f.line / 512)
  else d.useLines now f.half (f.line / 512) (rangeFrom (f.line % 512) f.count)

/-- MERE_FILL_DONE: the fill from DRAM that covers a line completes, once its transfers have been granted; every read that waited
is served by it (R102). -/
def execMereFillDone (half : Half) (line : Nat) (s : State) : Host.Outcome State Fault Refusal :=
  s.act fun now d =>
    match d.mem.fills.find? fun f => f.half == half && decide (f.line ≤ line) && decide (line < f.line + f.count) && f.lpns.isEmpty with
    | none => d
    | some f => if d.asking (.fill half f.line) then d else d.endFill now f

/-- A peat page has been read: the fills that wait for no other are over (R300). -/
def Device.peatFilled (d : Device) (now lpn : Nat) : Device :=
  let ovr := d.mem.fills.filter fun f => f.lpns.contains lpn && f.lpns.all (· == lpn) && !d.asking (.fill f.half f.line)
  let d := { d with mem := { d.mem with fills := d.mem.fills.map fun f => { f with lpns := f.lpns.filter (· != lpn) } } }
  forEach d ovr fun d f => d.endFill now { f with lpns := [] }

/-- Fills that read peat pages no longer mapped go on without them. -/
def Mem.forgetLpns (m : Mem) (lpns : List Nat) : Mem :=
  { m with fills := m.fills.map fun f => { f with lpns := f.lpns.filter fun l => !lpns.contains l } }

/-! ### Writes (R172, R174) -/

/-- Lines of a page, written whole, are placed in the mere; without WRITE_BACK they go to DRAM as they land, at the memory port
`port`. -/
def Device.writtenLines (d : Device) (now : Nat) (w : Asker) (port page : Nat) (ls : List Nat) : Device :=
  match d.ownerOf page with
  | none => d
  | some (_, a) =>
    let h := flagHalf a.flags
    let d := d.useLines now h page ls
    if flagWriteBack a.flags then d
    else (d.requests now (dramLines (halfNum h) (d.physOf page) port ls) w.lst ⟨w.part, w.core, .landing⟩).countMiss now w.part 0
      (2 * ls.length) 0

/-! ### Reads (R299, R300) -/

/-- A logical page is unreadable, or no longer: the allocation page whose image it holds is poisoned, until every logical page of
the image reads again (R299). -/
def Device.markLpn (d : Device) (lpn : Nat) (bad : Bool) : Device :=
  let d := d.modPeat fun p => { p with poison := p.poison.set false lpn bad }
  match d.peat.pageOfLpn lpn with
  | none => d
  | some pg =>
    let image := match d.peat.cells.get none pg with | some (f, n) => rangeFrom f n | none => []
    { d with mem := { d.mem with poison := d.mem.poison.set false pg (image.any fun l => d.peat.poison.get false l) } }

/-- PEAT_READ_DONE: a read of a mapped page, once its transfers have been granted, with the bit errors of each sector's codeword
(R298, R299): its blocks go to the fills that wait, or it is uncorrectable, as it also is where its metadata does not match (R297). -/
def execPeatReadDone (lpn : BitVec 32) (bitErrors : List Nat) (s : State) : Host.Outcome State Fault Refusal :=
  s.act fun now d =>
    let l := lpn.toNat
    match d.peat.lookup l with
    | none => d
    | some ph =>
      if !d.aon.gpio1 || d.asking (.peatRead l) then d
      else if bitErrors.any (bchCorrects < ·) || d.peat.misread l then
        let d := d.logFault now fcPeatUncorrectable none none l ph
        let d := (d.markLpn l true).modPeat fun p => { p with rereads := p.rereads.set 0 l 3 }
        { d with mem := { d.mem with fills := d.mem.fills.filter fun f => !f.lpns.contains l } }
      else
        let d := d.peatFilled now l
        if bitErrors.any (24 < ·) then
          d.modPeat fun p => (p.modBlock (physKey ph) fun b => { b with relocate := true }).relocate now (physKey ph)
        else d

/-- PEAT_REREAD: one of up to three background re-reads of an uncorrectable page; a good one relocates it (R299). -/
def execPeatReread (lpn : BitVec 32) (ok : Bool) (s : State) : Host.Outcome State Fault Refusal :=
  s.act fun now d =>
    let n := d.peat.rereads.get 0 lpn.toNat
    if n = 0 || !d.flashOn then d
    else if ok && !d.peat.misread lpn.toNat then
      (d.markLpn lpn.toNat false).modPeat fun p =>
        ({ p with rereads := p.rereads.set 0 lpn.toNat 0 } : Peat).queueProgram now lpn.toNat (p.readPage lpn.toNat)
    else d.modPeat fun p => { p with rereads := p.rereads.set 0 lpn.toNat (n - 1) }

/-- PEAT_PATROL: the patrol asks to read the next mapped page, with the horizon of background scrub (R299), at the port of the scan
engines (log entry 106); what the read finds is PEAT_READ_DONE's. -/
def execPeatPatrol (s : State) : Host.Outcome State Fault Refusal :=
  s.act fun now d =>
    if !d.flashOn then d
    else
      let next := (d.peat.map.find? fun e => decide (d.peat.patrolLpn < e.1)).orElse fun _ => d.peat.map.head?
      match next with
      | none => d
      | some e =>
        let d := d.modPeat fun p => { p with patrolLpn := e.1, patrolAt := now }
        if d.asking (.peatRead e.1) then d
        else d.request now [hop .flashChannel (physCh (e.2.getD 0)) 3 2] (lstOf now (now + 10000000)) ⟨none, none, .peatRead e.1⟩

end Sys2Proof.Machine
end

