-- ==== Sys2Proof/Machine/Mover.lean ====
section
/-! DEFINITION. Class 0x9: the page mover, KVWALK and the schedule engine (R74–R76, R133, R134, R158, R159, R167, R168,
R178–R181). -/

namespace Sys2Proof.Machine

/-! ### Addresses -/

def inAllocSpace (a : Nat) : Bool := a / 2 ^ 46 == 2
def inPoolSpace (a : Nat) : Bool := a / 2 ^ 46 == 0
/-- Spaces 0b01 and 0b11 are reserved (R50). -/
def reservedSpace (a : Nat) : Bool := a / 2 ^ 46 % 2 == 1
/-- An own-pool range (R50). -/
def poolRange (a n : Nat) : Bool := inPoolSpace a && decide (a + n ≤ poolBytes)

/-- A fault of a page mover: its code, the address concerned, and the folded address and block of the plait error it stands for. -/
structure MoveFault where
  code : Nat
  addr : Nat
  plait : Option (Nat × Nat) := none
  deriving DecidableEq, Repr

/-- Bytes that cannot be read raise POISON_READ (R189, R287). -/
def Unread.fault (a : Alloc) : Unread → MoveFault
  | .poison o => ⟨fcPoisonRead, a.base + o, none⟩
  | .plait o f b => ⟨fcPoisonRead, a.base + o, some (f, b)⟩

/-- What an allocation-space range of a page mover comes to: the allocation and the byte in it, or a fault (R167, R168, R287). -/
inductive Reach where
  | ok (slot : Nat) (a : Alloc) (b : Nat)
  | bad (f : MoveFault)
  deriving DecidableEq, Repr

/-- Core `c` reaches `n` bytes at an allocation-space address. -/
def Device.reach (d : Device) (c addr n : Nat) (write : Bool) : Reach :=
  let page := bitsOf addr 37 16
  match d.ownerOf page with
  | none => .bad ⟨fcHandleStale, addr, none⟩
  | some (slot, a) =>
    let b := (page - a.p0) * pageBytes + addr % pageBytes
    if a.gen ≠ bitsOf addr 45 38 ∨ (halfNum (flagHalf a.flags) ≠ halfOfCore c ∧ !flagCross a.flags) then
      .bad ⟨fcHandleStale, addr, none⟩
    else if a.bytes < b + n then .bad ⟨fcHandleStale, addr + n - 1, none⟩
    else if write && flagReadOnly a.flags then .bad ⟨fcDesc, addr, none⟩
    else if write then .ok slot a b
    else match d.firstBad a b n with
      | some u => .bad (u.fault a)
      | none => .ok slot a b

/-! ### Descriptors -/

/-- A move descriptor as an entry (R74), or the fault it raises at PMQ (R50, R76). -/
inductive MoveCheck where
  | ok (e : MoverEntry)
  | bad (code addr : Nat)
  deriving DecidableEq, Repr

def moveKind (n : Nat) : Option MoverKind :=
  match n with | 0 => some .copy | 1 => some .gather | 2 => some .scatter | 3 => some .fillZero | _ => none

/-- A COPY or FILL_ZERO: alignments, a side in the own pool, own-pool ranges inside it (R74, R76). -/
def copyOk (kind : MoverKind) (src dst len : Nat) : Bool :=
  dst % 128 == 0 && len % 128 == 0
    && (!inPoolSpace dst || poolRange dst len)
    && (kind != .copy || (src % 128 == 0 && (inPoolSpace src || inPoolSpace dst) && (!inPoolSpace src || poolRange src len)))

/-- A GATHER or SCATTER: COUNT, ROW_BYTES, the list and the row area in the own pool (R74, R76). -/
def listOk (list rows len : Nat) : Bool :=
  let n := bitsOf len 15 0; let rb := bitsOf len 31 16
  decide (1 ≤ n) && decide (n ≤ 4096) && rb % 64 == 0 && decide (64 ≤ rb) && decide (rb ≤ 16384)
    && list % 8 == 0 && rows % 64 == 0 && poolRange list (8 * n) && poolRange rows (n * rb)

/-- What PMQ finds against an entry: an address in a reserved space (POOL_RANGE, R50), or a rule of R76 broken (DESC_INVALID). -/
def MoverEntry.fault (e : MoverEntry) : Option (Nat × Nat) :=
  if e.kind ≠ .fillZero ∧ reservedSpace e.src then some (fcPoolRange, e.src)
  else if reservedSpace e.dst then some (fcPoolRange, e.dst)
  else
    let good := match e.kind with
      | .gather => listOk e.src e.dst e.len
      | .scatter => listOk e.dst e.src e.len
      | k => copyOk k e.src e.dst e.len
    if good then none else some (fcDesc, 0)

def checkMove (lo hi : BitVec 128) : MoveCheck :=
  let f := dfldWord lo hi
  match moveKind (f 0 51 48) with
  | none => .bad fcDesc 0
  | some k =>
    let e : MoverEntry := ⟨k, f 0 47 0, f 1 47 0, f 2 31 0, f 0 52 52 == 1, f 0 58 53, f 3 31 0, false, false, 0⟩
    if f 0 63 59 ≠ 0 ∨ f 1 63 48 ≠ 0 ∨ f 2 63 32 ≠ 0 ∨ f 3 63 32 ≠ 0 then .bad fcDesc 0
    else match e.fault with
      | some x => .bad x.1 x.2
      | none => .ok e
where
  /-- Field `[h:l]` of word `w` of a descriptor pair. -/
  dfldWord (lo hi : BitVec 128) (w h l : Nat) : Nat :=
    bitsOf (if w < 2 then lo else hi).toNat (64 * (w % 2) + h) (64 * (w % 2) + l)

/-- PMQ (R75, R76): stalls while the queue of 16 is full. -/
def execPmq (c : CoreId) (g : Guard) (o : MoverOps) (s : State) : Host.Outcome State Fault Refusal :=
  instr c g s fun now d =>
    let k := d.core c.toNat
    let dp := o.dpair.toNat
    if o.rsv ≠ 0 ∨ dp % 2 ≠ 0 then d.coreFault now c.toNat fcIllegal 0
    else if 16 ≤ k.mover.length then d.modCore c.toNat fun k => k.stall .waitMover
    else match checkMove (k.rd dp) (k.rd (dp + 1)) with
      | .bad code a => d.coreFault now c.toNat code a
      | .ok e => d.modCore c.toNat fun k => { k with mover := k.mover ++ [e] }.next

/-- PMWAIT stalls until the queue is empty (R75); an odd DPAIR is no fault (log entry 100). -/
def execPmwait (c : CoreId) (g : Guard) (o : MoverOps) (s : State) : Host.Outcome State Fault Refusal :=
  coreInstr c g s (o.rsv == 0) fun k => if k.mover.isEmpty then k.next else k.stall .waitMover

/-! ### KVWALK (R158, R159) -/

/-- The copies of a walk, not yet checked as PMQ checks them, or the fault that the walk raises: DESC_INVALID for what R159 lists
and for a table entry that is no valid one; POOL_RANGE for a table entry that lies outside the pool (log entry 107). -/
def walkCopies (k : Core) (lo hi : BitVec 128) : Except (Nat × Nat) (List MoverEntry) :=
  let f := checkMove.dfldWord lo hi
  let base := f 0 47 0; let layer := f 0 55 48; let layers := f 0 63 56
  let table := f 1 21 0; let first := f 1 40 32; let count := f 1 48 41; let vb := f 1 51 49; let vbn := f 1 55 52
  let dst := f 2 21 0
  let size := vbn * 32768
  let good := f 1 31 22 == 0 && f 1 63 56 == 0 && f 2 63 29 == 0 && f 3 63 32 == 0
    && decide (layer < layers) && decide (first + count ≤ 512) && decide (vb + vbn ≤ 8) && count != 0 && vbn != 0
    && table % 4 == 0 && dst % 128 == 0 && inAllocSpace base && decide (dst + count * size ≤ poolBytes)
  let ents := (List.range count).map fun i => k.pool.rdLe (table + 4 * (first + i)) 4
  if !good then .error (fcDesc, 0)
  else if poolBytes < table + 4 * (first + count) then .error (fcPoolRange, max poolBytes (table + 4 * first))
  else if ents.all fun e => e / 2 ^ 24 == 0x80 then
    .ok (((List.range count).zip ents).map fun ie =>
      ⟨.copy, (base + ((ie.2 % 2 ^ 24) * layers + layer) * 262144 + vb * 32768) % 2 ^ 48, dst + ie.1 * size, size,
        f 2 22 22 == 1, f 2 28 23, f 3 31 0, false, false, 0⟩)
  else .error (fcDesc, 0)

/-- Copies enter the queue in turn while it has room, each checked as PMQ checks it; the instruction ends with the last one, and a
copy that fails leaves those before it. -/
def Core.emitWalk (k : Core) : List MoverEntry → Core × Option (Nat × Nat)
  | [] => ({ k with walk := [] }.next, none)
  | e :: es =>
    if 16 ≤ k.mover.length then ({ k with walk := e :: es }.stall .waitMover, none)
    else match e.fault with
      | some x => ({ k with walk := [] }, some x)
      | none => { k with mover := k.mover ++ [e] }.emitWalk es

def Device.emitWalk (d : Device) (now c : Nat) (es : List MoverEntry) : Device :=
  let r := (d.core c).emitWalk es
  let d := d.modCore c fun _ => r.1
  match r.2 with
  | none => d
  | some x => d.coreFault now c x.1 x.2

/-- KVWALK: checks its whole range, then emits one COPY for each page, stalling while the queue is full. -/
def execKvwalk (c : CoreId) (g : Guard) (o : MoverOps) (s : State) : Host.Outcome State Fault Refusal :=
  instr c g s fun now d =>
    let k := d.core c.toNat
    let dp := o.dpair.toNat
    if o.rsv ≠ 0 ∨ dp % 2 ≠ 0 then d.coreFault now c.toNat fcIllegal 0
    else if !k.walk.isEmpty then d.emitWalk now c.toNat k.walk
    else match walkCopies k (k.rd dp) (k.rd (dp + 1)) with
      | .error x => d.coreFault now c.toNat x.1 x.2
      | .ok es => d.emitWalk now c.toNat es

/-! ### Entries in flight (R75) -/

/-- The list entries of a GATHER or SCATTER, as they stand in the pool. -/
def Core.listEntries (k : Core) (at_ n : Nat) : List Nat := (List.range n).map fun i => k.pool.rdLe (at_ + 8 * i) 8

/-- The byte ranges an entry touches: (first, beyond the last); own-pool addresses are below 2^46. -/
def MoverEntry.ranges (e : MoverEntry) (k : Core) : List (Nat × Nat) :=
  let n := bitsOf e.len 15 0; let rb := bitsOf e.len 31 16
  let rows (l : Nat) : List (Nat × Nat) :=
    ((k.listEntries l n).filter fun x => x < 2 ^ 48).map fun x => (x, x + rb)
  match e.kind with
  | .copy => [(e.src, e.src + e.len), (e.dst, e.dst + e.len)]
  | .fillZero => [(e.dst, e.dst + e.len)]
  | .gather => (e.src, e.src + 8 * n) :: (e.dst, e.dst + n * rb) :: rows e.src
  | .scatter => (e.dst, e.dst + 8 * n) :: (e.src, e.src + n * rb) :: rows e.dst
  | .fill _ _ _ | .drop _ _ _ => [(e.src, e.src + e.len)]

def rangesMeet (a b : List (Nat × Nat)) : Bool := a.any fun x => b.any fun y => decide (x.1 < y.2) && decide (y.1 < x.2)

/-- Pages of a slot's allocation held in window frames (R181). -/
def Device.windowUsed (d : Device) (a : Alloc) : Nat :=
  ((rangeFrom a.p0 a.pages).filter fun pg => d.mem.window.get false pg).length

/-- A FILL into a window finds its frames: the pages not yet held fit among the free ones (R181). -/
def Device.fillRoom (d : Device) (slot first pages : Nat) : Bool :=
  match d.alloc? slot with
  | none => true
  | some a =>
    flagWindow a.flags == 0 ||
      decide (d.windowUsed a + ((rangeFrom (a.p0 + first) pages).filter fun pg => !d.mem.window.get false pg).length
        ≤ a.windowFrames)

/-- A FILL into a window takes its frames. -/
def Device.takeFrames (d : Device) (slot first pages : Nat) : Device :=
  match d.alloc? slot with
  | none => d
  | some a =>
    if flagWindow a.flags = 0 then d
    else { d with mem := { d.mem with window := setAll false d.mem.window (rangeFrom (a.p0 + first) pages) true } }

/-- Index of the first entry not yet started. -/
def nextEntry (q : List MoverEntry) : Option Nat := q.findIdx? fun e => !e.started

/-- Replaces entry `i`. -/
def Core.setEntry (k : Core) (i : Nat) (e : MoverEntry) : Core := { k with mover := k.mover.set i e }

/-- Pages and lines of allocation space that an entry reads through the mere: sources, rows gathered, pages of a FILL; and the
lines that rows scattered cover in part, which are filled first (R277). -/
def MoverEntry.reads (e : MoverEntry) (k : Core) : List (Nat × List Nat) :=
  let n := bitsOf e.len 15 0; let rb := bitsOf e.len 31 16
  match e.kind with
  | .copy => if inAllocSpace e.src then pageLines e.src e.len else []
  | .gather => ((k.listEntries e.src n).filter fun x => x < 2 ^ 48 && inAllocSpace x).flatMap fun x => pageLines x rb
  | .scatter => ((k.listEntries e.dst n).filter fun x => x < 2 ^ 48 && inAllocSpace x).flatMap fun x =>
      (if x % 128 = 0 then [] else pageLines x 1) ++ (if (x + rb) % 128 = 0 then [] else pageLines (x + rb - 1) 1)
  | .fill _ _ _ => pageLines e.src e.len
  | .fillZero | .drop _ _ _ => []

/-- Pages and lines of allocation space that an entry writes. -/
def MoverEntry.writes (e : MoverEntry) (k : Core) : List (Nat × List Nat) :=
  let n := bitsOf e.len 15 0; let rb := bitsOf e.len 31 16
  match e.kind with
  | .copy | .fillZero => if inAllocSpace e.dst then pageLines e.dst e.len else []
  | .scatter => ((k.listEntries e.dst n).filter fun x => x < 2 ^ 48 && inAllocSpace x).flatMap fun x => pageLines x rb
  | _ => []

/-- The home half of a page. -/
def Device.homeHalf (d : Device) (page : Nat) : Option Nat := (d.ownerOf page).map fun o => halfNum (flagHalf o.2.flags)

/-- The transfers of an entry between the pool and the meres, raised together at its start (log entry 108). -/
def Device.moverAsks (d : Device) (now c : Nat) (w : Asker) (e : MoverEntry) : Device :=
  let k := d.core c
  let write := e.kind != .gather && !(e.writes k).isEmpty
  let moved := match e.kind with | .fill _ _ _ => [] | _ => if write then e.writes k else e.reads k
  forEach d moved fun d x => match d.homeHalf x.1 with
    | none => d
    | some h => d.requests now (moverRoutes c h x.2 write) w.lst ⟨w.part, w.core, .mover c e.ticket⟩

/-- PM_ENTRY_START: the next entry in queue order starts: at most four in flight, none overlapping an earlier one in
flight, a FILL with its window frames (R75, R181). Lines that are not in the mere begin to be filled, and the entry asks for its
transfers. -/
def execPmEntryStart (c : CoreId) (s : State) : Host.Outcome State Fault Refusal :=
  s.act fun now d =>
    let k := d.core c.toNat
    match nextEntry k.mover with
    | none => d
    | some i =>
      match k.mover[i]? with
      | none => d
      | some e =>
        let flying := (k.mover.take i).filter fun f => f.started && !f.done
        if 4 ≤ flying.length ∨ flying.any fun f => rangesMeet (f.ranges k) (e.ranges k) then d
        else
          let e := { e with started := true, ticket := d.arb.next }
          let w : Asker := ⟨d.partOf c.toNat, some c.toNat, (k.deadline + 2 ^ 32 - e.delta) % 2 ^ 32⟩
          let go (d : Device) : Device :=
            let d := (d.modCore c.toNat fun k => k.setEntry i e).numbered
            (forEach d (e.reads k) fun d x => d.readLines now w x.1 x.2).moverAsks now c.toNat w e
          match e.kind with
          | .fill slot first pages => if d.fillRoom slot first pages then go (d.takeFrames slot first pages) else d
          | _ => go d

/-! ### What an entry does -/

/-- The page-table entry of token page `i` of a slot in the control core's pool (R157). -/
def Device.tableEntry (d : Device) (w : Weave) (x : ServRec) (slot i : Nat) : Nat :=
  (d.core w.control).pool.rdLe (x.tableBase + slot * 2048 + 4 * i) 4
/-- VALID of a page-table entry. -/
def entryValid (e : Nat) : Bool := bitOf e 31

/-- The page table of a slot names a frame in a valid entry (R157). -/
def Device.ptNames (d : Device) (w : Weave) (x : ServRec) (slot frame : Nat) : Bool :=
  (List.range 512).any fun i => let e := d.tableEntry w x slot i; entryValid e && e % 2 ^ 24 == frame

/-- The frame of a KV pool of a half that holds an address, if that pool holds it (R156). -/
def Device.frameAt (d : Device) (w : Weave) (x : ServRec) (half : Bool) (addr : Nat) : Option Nat :=
  match d.alloc? (w.planSlots.getD (if half then x.kv1 else x.kv0) 65536) with
  | none => none
  | some a => if a.base ≤ addr ∧ addr < a.base + a.bytes then some ((addr - a.base) / (x.layers * 262144)) else none

/-- Every sequence whose page table names the frame of a poisoned address is lost, whichever core read it (R161). -/
def Device.loseFrame (d : Device) (now addr : Nat) : Device :=
  match d.servingWeave with
  | none => d
  | some (_, w) =>
    match w.serving, w.bound with
    | some x, some p =>
      forEach d (List.range 256) fun d sl =>
        let q := d.seq sl
        match d.frameAt w x q.half addr with
        | none => d
        | some f =>
          if q.phase ≠ 0 && d.ptNames w x sl f then (d.setSeq sl { q with lost := true }).endFeed now p sl stFaulted false
          else d
    | _, _ => d

/-- A page mover's fault: at the core, the plait error beside it, and the loss of a poisoned frame's sequences before re-dispatch
(R57, R161, R189). -/
def Device.moverFault (d : Device) (now c : Nat) (f : MoveFault) : Device :=
  let part := d.partOf c
  let d := d.coreFault now c f.code f.addr
  let d := match f.plait with
    | some x => d.logFault now fcPlaitError part (some c) x.1 x.2
    | none => d
  if f.code = fcPoisonRead then d.loseFrame now f.addr else d

def Device.writePool (d : Device) (c a : Nat) (bs : List Byte) : Device :=
  d.modCore c fun k => { k with pool := k.pool.setList 0 a bs }
def Device.readPool (d : Device) (c a n : Nat) : List Byte := (d.core c).pool.getList 0 a n

/-- The device after an entry's effect, or its fault. -/
inductive Moved where
  | ok (d : Device)
  | bad (d : Device) (f : MoveFault)
  deriving DecidableEq, Repr

/-- COPY (R74). -/
def Device.moveCopy (d : Device) (c src dst len : Nat) : Moved :=
  if len = 0 then .ok d
  else if inPoolSpace src then
    let bs := d.readPool c src len
    if inPoolSpace dst then .ok (d.writePool c dst bs)
    else match d.reach c dst len true with
      | .ok _ a b => .ok (d.writeBytes a b bs)
      | .bad f => .bad d f
  else match d.reach c src len false with
    | .ok _ a b => .ok (d.writePool c dst (d.readBytes a b len))
    | .bad f => .bad d f

/-- FILL_ZERO (R74). -/
def Device.moveZero (d : Device) (c dst len : Nat) : Moved :=
  if len = 0 then .ok d
  else if inPoolSpace dst then .ok (d.writePool c dst (List.replicate len 0))
  else match d.reach c dst len true with
    | .ok _ a b => .ok (d.writeBytes a b (List.replicate len 0))
    | .bad f => .bad d f

/-- A row of a list (R133, R134): null, reachable, or the fault it raises. `late` faults leave earlier rows written. -/
inductive Row where
  | null
  | at_ (a : Alloc) (b : Nat)
  | bad (late : Bool) (f : MoveFault)
  deriving DecidableEq, Repr

/-- A row in a PLAIT allocation lies in one block, or starts one (R134). -/
def plaitRowOk (b rb : Nat) : Bool := if rb ≤ 256 then decide (b % 256 + rb ≤ 256) else b % 256 == 0

/-- What makes a line unreadable that `n` bytes from byte `b`, written, cover in part: it is filled first (R277). -/
def Device.edgeBad (d : Device) (a : Alloc) (b n : Nat) : Option Unread :=
  let at_ (x : Nat) : Option Unread := if x % 128 = 0 then none else d.firstBad a (x / 128 * 128) 128
  (at_ b).orElse fun _ => at_ (b + n)

def Device.rowOf (d : Device) (c rb e : Nat) (write : Bool) : Row :=
  if e = 2 ^ 64 - 1 then .null
  else if 2 ^ 48 ≤ e then .bad true ⟨fcDesc, e % 2 ^ 48, none⟩
  else if reservedSpace e then .bad true ⟨fcPoolRange, e, none⟩
  else if !inAllocSpace e then .bad true ⟨fcDesc, e, none⟩
  else match d.reach c e rb write with
    | .bad f => .bad false f
    | .ok _ a b =>
      if b % 64 ≠ 0 ∨ (flagPlait a.flags ∧ !plaitRowOk b rb) then .bad true ⟨fcAlign, e, none⟩
      else match if write then d.edgeBad a b rb else none with
        | some u => .bad false (u.fault a)
        | none => .at_ a b

/-- The rows up to the first that faults, and that fault. -/
def cutRows : List Row → List Row × Option (Bool × MoveFault)
  | [] => ([], none)
  | .bad l f :: _ => ([], some (l, f))
  | r :: rs => let x := cutRows rs; (r :: x.1, x.2)

/-- GATHER and SCATTER (R74, R133): rows in list order. A stale handle or a poisoned page leaves nothing written (R76);
the other faults leave the rows before them. -/
def Device.moveRows (d : Device) (c list area len : Nat) (gather : Bool) : Moved :=
  let n := bitsOf len 15 0; let rb := bitsOf len 31 16
  let rows := ((d.core c).listEntries list n).map fun e => d.rowOf c rb e (!gather)
  let (good, flt) := cutRows rows
  let put (d : Device) (ir : Nat × Row) : Device :=
    let at_ := area + ir.1 * rb
    match ir.2 with
    | .null => if gather then d.writePool c at_ (List.replicate rb 0) else d
    | .at_ a b => if gather then d.writePool c at_ (d.readBytes a b rb) else d.writeBytes a b (d.readPool c at_ rb)
    | .bad _ _ => d
  let done := ((List.range good.length).zip good).foldl put d
  match flt with
  | none => .ok done
  | some (late, f) => if late then .bad done f else .bad d f

/-- A FILL brings its pages into the mere (R179): a poisoned page raises POISON_READ. -/
def Device.moveFill (d : Device) (slot first pages : Nat) : Moved :=
  match d.alloc? slot with
  | none => .bad d ⟨fcHandleStale, 0, none⟩
  | some a =>
    match d.firstBad a (first * pageBytes) (pages * pageBytes) with
    | some u => .bad d (u.fault a)
    | none => .ok d

/-- A DROP releases the window frames of its pages, with the lines in them (R179, R181). -/
def Device.moveDrop (d : Device) (slot first pages : Nat) : Moved :=
  match d.alloc? slot with
  | none => .ok d
  | some a =>
    if flagWindow a.flags = 0 then .ok d
    else
      let lo := a.p0 + first; let hi := lo + pages
      .ok { d with mem := { d.mem with
        window := d.mem.window.clear lo hi
        full := d.mem.full.clear lo hi
        cached := d.mem.cached.filter fun e => decide (e.2 / 512 < lo) || decide (hi ≤ e.2 / 512) } }

def Device.moveEntry (d : Device) (c : Nat) (e : MoverEntry) : Moved :=
  match e.kind with
  | .copy => d.moveCopy c e.src e.dst e.len
  | .fillZero => d.moveZero c e.dst e.len
  | .gather => d.moveRows c e.src e.dst e.len true
  | .scatter => d.moveRows c e.dst e.src e.len false
  | .fill slot first pages => d.moveFill slot first pages
  | .drop slot first pages => d.moveDrop slot first pages

/-- 64-byte units an entry moves (R430). -/
def MoverEntry.units (e : MoverEntry) : Nat :=
  match e.kind with
  | .copy | .fillZero => e.len / 64
  | .gather | .scatter => bitsOf e.len 15 0 * (bitsOf e.len 31 16 / 64)
  | .fill _ _ n => n * 1024
  | .drop _ _ _ => 0

/-- Entries done at the head of the queue leave it, their done knots signalled in queue order (R75). -/
def Device.drainMover (d : Device) (now c : Nat) : Nat → Device
  | 0 => d
  | n + 1 =>
    match (d.core c).mover with
    | e :: r =>
      if e.done then
        let d := d.modCore c fun k => { k with mover := r }
        (if e.doneEn then d.signalOwn now c e.doneKnot else d).drainMover now c n
      else d
    | [] => d

/-- The memory port at which lines that core `c` wrote to a page land: its bundle's, or that of the mere for a core of the other
half. -/
def Device.landPort (d : Device) (c page : Nat) : Nat :=
  if d.homeHalf page = some (halfOfCore c) then 2 + bundleOf c % 8 else 1

/-- PM_ENTRY_COMPLETE: entry `i` of the queue, in flight, completes once the lines it reads are there and its transfers have been
granted (R34, R74, R75). -/
def execPmEntryComplete (c : CoreId) (i : BitVec 4) (s : State) : Host.Outcome State Fault Refusal :=
  s.act fun now d =>
    let k := d.core c.toNat
    match k.mover[i.toNat]? with
    | none => d
    | some e =>
      if !e.started || e.done || d.asking (.mover c.toNat e.ticket) || ((e.reads k).any fun x => d.filling x.1 x.2) then d
      else match d.moveEntry c.toNat e with
        | .bad d f => d.moverFault now c.toNat f
        | .ok d =>
          let w : Asker := ⟨d.partOf c.toNat, some c.toNat, (k.deadline + 2 ^ 32 - e.delta) % 2 ^ 32⟩
          let d := forEach d (e.writes k) fun d x => d.writtenLines now w (d.landPort c.toNat x.1) x.1 x.2
          let d := match d.partOf c.toNat with
            | none => d
            | some p => d.modPart p fun q => { q with pmLines := q.pmLines.bump now e.units }
          (d.modCore c.toNat fun k => k.setEntry i.toNat { e with done := true }).drainMover now c.toNat 16

/-! ### The schedule engine (R178, R179) -/

/-- A schedule record as an entry; none where it raises DESC_INVALID. `w` is its 256 bits, `slots` the plan's slots. -/
def Device.recordEntry (d : Device) (w : Nat) (slots : List Nat) : Option MoverEntry :=
  let f (i h l : Nat) : Nat := bitsOf w (64 * i + h) (64 * i + l)
  let kind := f 0 1 0; let first := f 0 63 32; let pages := f 1 15 0; let dst := f 1 37 16
  match slots[f 0 9 2]? with
  | none => none
  | some slot =>
    match d.alloc? slot with
    | none => none
    | some a =>
      let good := f 0 15 10 == 0 && f 1 63 45 == 0 && f 2 63 32 == 0 && f 3 63 0 == 0 && decide (kind < 3)
        && decide (1 ≤ pages) && decide (first + pages ≤ a.pages)
        && (if kind = 1 then decide (pages ≤ 48) && dst % 128 == 0 && decide (dst + pages * pageBytes ≤ poolBytes)
            else dst == 0)
      let e (k : MoverKind) (src dst len : Nat) : MoverEntry :=
        ⟨k, src, dst, len, f 1 38 38 == 1, f 1 44 39, f 2 31 0, false, false, 0⟩
      if !good then none
      else match kind with
        | 0 => some (e (.fill slot first pages) (a.base + first * pageBytes) 0 (pages * pageBytes))
        | 1 => some (e .copy (a.base + first * pageBytes) dst (pages * pageBytes))
        | _ => some (e (.drop slot first pages) (a.base + first * pageBytes) 0 (pages * pageBytes))

/-- SCHEDULE_RECORD_ISSUE: the next record enters the queue once MARK_KNOT's count has reached its MARK and the queue has
room (R178). -/
def execScheduleRecordIssue (c : CoreId) (s : State) : Host.Outcome State Fault Refusal :=
  s.act fun now d =>
    let k := d.core c.toNat
    if !k.part || k.run == .faulted || decide (k.sched.count ≤ k.sched.next) || decide (16 ≤ k.mover.length) then d
    else
      let w := k.pool.rdLe (k.sched.list + 32 * k.sched.next) 32
      if (d.lknot c.toNat k.sched.mark).count < bitsOf w 31 16 then d
      else
        let slots := (((d.partOf c.toNat).bind d.boundWeave).map (·.planSlots)).getD []
        match d.recordEntry w slots with
        | none => d.coreFault now c.toNat fcDesc 0
        | some e => d.modCore c.toNat fun k =>
            { k with mover := k.mover ++ [e], sched := { k.sched with next := k.sched.next + 1 } }

end Sys2Proof.Machine
end

