-- ==== Sys2Proof/Machine/Crypto.lean ====
section
/-! DEFINITION. The ciphers that the keys of the spec name: AES-256, its key wrap and GCM (R311, R319, R436), ECDSA and
ECDH on P-384 (R310, R434, R436). Byte strings are lists in ascending byte order. -/

namespace Sys2Proof.Machine

/-! ### AES-256 (FIPS 197) -/

/-- Multiplication by x in GF(2^8). -/
def gfX (a : Byte) : Byte := (a <<< 1) ^^^ (if a.getLsbD 7 then 0x1B else 0)

def gfMulGo : Nat → Byte → Byte → Byte → Byte
  | 0, _, _, r => r
  | n + 1, a, b, r => gfMulGo n (gfX a) (b >>> 1) (if b.getLsbD 0 then r ^^^ a else r)
/-- Multiplication in GF(2^8). -/
def gfMul (a b : Byte) : Byte := gfMulGo 8 a b 0

/-- The inverse in GF(2^8), 0 for 0: the 254th power. -/
def gfInv (a : Byte) : Byte :=
  let a2 := gfMul a a; let a4 := gfMul a2 a2; let a8 := gfMul a4 a4; let a16 := gfMul a8 a8
  let a32 := gfMul a16 a16; let a64 := gfMul a32 a32; let a128 := gfMul a64 a64
  gfMul a2 (gfMul a4 (gfMul a8 (gfMul a16 (gfMul a32 (gfMul a64 a128)))))

def aesSub (b : Byte) : Byte :=
  let x := gfInv b
  x ^^^ x.rotateLeft 1 ^^^ x.rotateLeft 2 ^^^ x.rotateLeft 3 ^^^ x.rotateLeft 4 ^^^ 0x63

def aesInvSub (b : Byte) : Byte := gfInv (b.rotateLeft 1 ^^^ b.rotateLeft 3 ^^^ b.rotateLeft 6 ^^^ 0x05)

def xorBytes (a b : List Byte) : List Byte := List.zipWith (· ^^^ ·) a b

/-- The key schedule in reverse order of words, extended by `k` words; `i` is the index of the next word. -/
def aesExpand : Nat → Nat → Byte → List (List Byte) → List (List Byte)
  | 0, _, _, ws => ws
  | k + 1, i, rc, ws =>
    let t := ws.getD 0 []
    let t := if i % 8 = 0 then xorBytes ((t.drop 1 ++ t.take 1).map aesSub) [rc, 0, 0, 0]
      else if i % 8 = 4 then t.map aesSub else t
    aesExpand k (i + 1) (if i % 8 = 0 then gfX rc else rc) (xorBytes (ws.getD 7 []) t :: ws)

/-- The 15 round keys of 16 bytes. -/
def aesKeys (key : List Byte) : List (List Byte) :=
  let w0 := (List.range 8).map fun i => (key.drop (4 * i)).take 4
  let ws := (aesExpand 52 8 1 w0.reverse).reverse
  (List.range 15).map fun r => (ws.drop (4 * r)).take 4 |>.flatten

/-- Row shift: byte 4c + r of the result is byte 4(c + r) + r. -/
def aesShift (s : List Byte) : List Byte := (List.range 16).map fun i => s.getD ((i + 4 * (i % 4)) % 16) 0
def aesInvShift (s : List Byte) : List Byte := (List.range 16).map fun i => s.getD ((i + 16 - 4 * (i % 4)) % 16) 0

/-- A column mix with the first row of its matrix. -/
def aesMix (m : List Byte) (s : List Byte) : List Byte :=
  (List.range 16).map fun i =>
    (List.range 4).foldl (fun a j => a ^^^ gfMul (m.getD ((j + 4 - i % 4) % 4) 0) (s.getD (i / 4 * 4 + j) 0)) 0

/-- AES-256 of a block of 16 bytes. -/
def aesEncrypt (ks : List (List Byte)) (blk : List Byte) : List Byte :=
  let s := xorBytes blk (ks.getD 0 [])
  let s := ((ks.drop 1).take 13).foldl (fun s k => xorBytes (aesMix [2, 3, 1, 1] (aesShift (s.map aesSub))) k) s
  xorBytes (aesShift (s.map aesSub)) (ks.getD 14 [])

/-- The inverse cipher. -/
def aesDecrypt (ks : List (List Byte)) (blk : List Byte) : List Byte :=
  let s := (aesInvShift (xorBytes blk (ks.getD 14 []))).map aesInvSub
  let s := ((ks.drop 1).take 13).reverse.foldl
    (fun s k => (aesInvShift (aesMix [14, 11, 13, 9] (xorBytes s k))).map aesInvSub) s
  xorBytes s (ks.getD 0 [])

/-! ### AES-256-XTS (R437) -/

/-- The tweak of the next block: times α in GF(2^128), little-endian. -/
def xtsNext (t : Nat) : Nat := let x := 2 * t; if x < 2 ^ 128 then x else (x - 2 ^ 128) ^^^ 0x87

/-- `n` blocks of a data unit from tweak `t` on. -/
def xtsBlocks (ks : List (List Byte)) : Nat → Nat → List Byte → List Byte
  | 0, _, _ => []
  | n + 1, t, bs =>
    let m := leBytes 16 t
    xorBytes (aesEncrypt ks (xorBytes (bs.take 16) m)) m ++ xtsBlocks ks n (xtsNext t) (bs.drop 16)

/-- A data unit of 1,024 bytes encrypted with its 128-bit tweak. -/
def xtsEncrypt (key tweakKey : List Byte) (tweak : Nat) (bs : List Byte) : List Byte :=
  xtsBlocks (aesKeys key) 64 (ofLe (aesEncrypt (aesKeys tweakKey) (leBytes 16 tweak))) bs

/-! ### Key wrap (KW, SP 800-38F) -/

def beBytes (n x : Nat) : List Byte := (leBytes n x).reverse

def kwUnwrapGo (ks : List (List Byte)) (n : Nat) : Nat → List Byte → List (List Byte) → List Byte × List (List Byte)
  | 0, a, rs => (a, rs)
  | t + 1, a, rs =>
    let i := t % n
    let b := aesDecrypt ks (xorBytes a (beBytes 8 (t + 1)) ++ rs.getD i [])
    kwUnwrapGo ks n t (b.take 8) (rs.set i (b.drop 8))

/-- The 32-byte key inside 40 wrapped bytes; none where the integrity check fails. -/
def kwUnwrap (kek wrapped : List Byte) : Option (List Byte) :=
  let rs := (List.range 4).map fun i => (wrapped.drop (8 + 8 * i)).take 8
  let (a, out) := kwUnwrapGo (aesKeys kek) 4 24 (wrapped.take 8) rs
  if a = List.replicate 8 0xA6 then some out.flatten else none

/-! ### GCM (SP 800-38D), 96-bit IV -/

def ghashMulGo : Nat → Nat → Nat → Nat → Nat
  | 0, _, _, z => z
  | n + 1, x, v, z =>
    ghashMulGo n x (if v % 2 = 1 then (v / 2) ^^^ (0xE1 * 2 ^ 120) else v / 2) (if bitOf x n then z ^^^ v else z)
/-- Product in GF(2^128), the most significant bit of a number being the coefficient of 1. -/
def ghashMul (x h : Nat) : Nat := ghashMulGo 128 x h 0

/-- GHASH continued over bytes, `n` blocks; a last block is filled with zeros. -/
def ghash (h : Nat) : Nat → Nat → List Byte → Nat
  | 0, y, _ => y
  | n + 1, y, bs =>
    let b := bs.take 16
    ghash h n (ghashMul (y ^^^ ofBe (b ++ List.replicate (16 - b.length) 0)) h) (bs.drop 16)

/-- Counter mode from counter value `c`, `n` blocks. -/
def gcmCtr (ks : List (List Byte)) (iv : List Byte) : Nat → Nat → List Byte → List Byte
  | 0, _, _ => []
  | n + 1, c, bs => xorBytes (bs.take 16) (aesEncrypt ks (iv ++ beBytes 4 c)) ++ gcmCtr ks iv n (c + 1) (bs.drop 16)

/-- The plaintext of a GCM ciphertext; none where the tag fails. -/
def gcmOpen (key iv aad ct tag : List Byte) : Option (List Byte) :=
  let ks := aesKeys key
  let h := ofBe (aesEncrypt ks (List.replicate 16 0))
  let y := ghash h (cdiv aad.length 16) 0 aad
  let y := ghash h (cdiv ct.length 16) y ct
  let y := ghash h 1 y (beBytes 8 (8 * aad.length) ++ beBytes 8 (8 * ct.length))
  if xorBytes (beBytes 16 y) (aesEncrypt ks (iv ++ beBytes 4 1)) = tag then
    some (gcmCtr ks iv (cdiv ct.length 16) 2 ct)
  else none

/-! ### P-384 (FIPS 186-4) -/

def p384P : Nat := 2 ^ 384 - 2 ^ 128 - 2 ^ 96 + 2 ^ 32 - 1
def p384B : Nat := 0xB3312FA7E23EE7E4988E056BE3F82D19181D9C6EFE8141120314088F5013875AC656398D8A2ED19D2A85C8EDD3EC2AEF
def p384N : Nat := 0xFFFFFFFFFFFFFFFFFFFFFFFFFFFFFFFFFFFFFFFFFFFFFFFFC7634D81F4372DDF581A0DB248B0A77AECEC196ACCC52973
def p384G : Nat × Nat :=
  (0xAA87CA22BE8B05378EB1C71EF320AD746E1D3B628BA79B9859F741E082542A385502F25DBF55296C3A545E3872760AB7,
   0x3617DE4A96262C6F5D9E98BF9292DC29F8F41DBD289A147CE9DA3113B5F0B8C00A60B1CE1D7E819D7A431D7C90EA0E5F)

/-- b^e mod m over the low `k` bits of e. -/
def powModGo (m : Nat) : Nat → Nat → Nat → Nat → Nat
  | 0, _, _, r => r
  | k + 1, b, e, r => powModGo m k (b * b % m) (e / 2) (if e % 2 = 1 then r * b % m else r)
/-- The inverse modulo a prime of 384 bits. -/
def invMod (m a : Nat) : Nat := powModGo m 384 (a % m) (m - 2) 1

/-- A point of P-384; none is the point at infinity. -/
abbrev EcPoint := Option (Nat × Nat)

def ecOnCurve (x y : Nat) : Bool :=
  decide (x < p384P) && decide (y < p384P) && y * y % p384P == (x * x * x + (p384P - 3) * x + p384B) % p384P

/-- The third point of a line of slope `l` through x1, y1 and x2. -/
def ecChord (l x1 y1 x2 : Nat) : EcPoint :=
  let x3 := (l * l + 2 * p384P - x1 - x2) % p384P
  some (x3, (l * (x1 + p384P - x3) + p384P - y1) % p384P)

def ecAdd : EcPoint → EcPoint → EcPoint
  | none, q => q
  | p, none => p
  | some (x1, y1), some (x2, y2) =>
    if x1 = x2 then
      if (y1 + y2) % p384P = 0 then none
      else ecChord ((3 * x1 * x1 + (p384P - 3)) * invMod p384P (2 * y1) % p384P) x1 y1 x2
    else ecChord ((y2 + p384P - y1) * invMod p384P (x2 + p384P - x1) % p384P) x1 y1 x2

def ecMulGo : Nat → Nat → EcPoint → EcPoint → EcPoint
  | 0, _, _, r => r
  | n + 1, k, q, r => ecMulGo n (k / 2) (ecAdd q q) (if k % 2 = 1 then ecAdd r q else r)
/-- k × q. -/
def ecMul (k : Nat) (q : EcPoint) : EcPoint := ecMulGo 384 k q none

/-- An ECDSA P-384 signature (r, s) over a SHA-384 verifies under a public key. -/
def ecdsaVerify (q : Nat × Nat) (msg : List Byte) (r s : Nat) : Bool :=
  if r = 0 || s = 0 || decide (p384N ≤ r) || decide (p384N ≤ s) then false
  else
    let e := ofBe (sha384 msg)
    let w := invMod p384N s
    match ecAdd (ecMul (e * w % p384N) (some p384G)) (ecMul (r * w % p384N) (some q)) with
    | none => false
    | some (x, _) => x % p384N == r

/-- x and y of 96 bytes, most significant byte first. -/
def pointOf (bs : List Byte) : Nat × Nat := (ofBe (bs.take 48), ofBe ((bs.drop 48).take 48))

end Sys2Proof.Machine
end

