-- ==== Sys2Proof/Machine/Num.lean ====
section
/-! DEFINITION. The ten formats (R80), exact values and the one rounding: nearest, ties to even. -/

namespace Sys2Proof.Machine

/-- A binary floating format of R80: exponent bits, mantissa bits, bias, and whether it has infinities. -/
structure Fmt where
  eb : Nat
  mb : Nat
  bias : Nat
  hasInf : Bool
  deriving DecidableEq, Repr

def fp32 : Fmt := ⟨8, 23, 127, true⟩
def bf16 : Fmt := ⟨8, 7, 127, true⟩
def fp16 : Fmt := ⟨5, 10, 15, true⟩
def e5m2 : Fmt := ⟨5, 2, 15, true⟩
def e4m3 : Fmt := ⟨4, 3, 7, false⟩
def e2m1 : Fmt := ⟨2, 1, 1, false⟩

/-- An exact value: NaN, a signed infinity, or (−1)^neg × m × 2^e. -/
inductive FVal where
  | nan
  | inf (neg : Bool)
  | fin (neg : Bool) (m : Nat) (e : Int)
  deriving DecidableEq, Repr

/-- The code's bits below the sign. -/
def Fmt.width (f : Fmt) : Nat := f.eb + f.mb

/-- The code of infinity without its sign (for a format without one, the first code beyond the last exponent). -/
def Fmt.infCode (f : Fmt) : Nat := (2 ^ f.eb - 1) * 2 ^ f.mb

/-- The canonical quiet NaN (R82). -/
def Fmt.nanCode (f : Fmt) : Nat := if f.hasInf then f.infCode + 2 ^ (f.mb - 1) else 2 ^ f.width - 1

/-- The value of a code (R80). E2M1 has no NaN; E4M3 has only S.1111.111. -/
def Fmt.decode (f : Fmt) (x : Nat) : FVal :=
  let neg := bitOf x f.width
  let ex := bitsOf x (f.width - 1) f.mb
  let mt := x % 2 ^ f.mb
  if f.hasInf && ex == 2 ^ f.eb - 1 then (if mt == 0 then .inf neg else .nan)
  else if f == e4m3 && x % 2 ^ f.width == 2 ^ f.width - 1 then .nan
  else if ex == 0 then .fin neg mt (1 - (f.bias : Int) - f.mb)
  else .fin neg (2 ^ f.mb + mt) ((ex : Int) - f.bias - f.mb)

/-- `num / den`, rounded to the nearest integer, ties to even. -/
def rneDiv (num den : Nat) : Nat :=
  let q := num / den
  let r := num % den
  if den < 2 * r || (2 * r == den && q % 2 == 1) then q + 1 else q

/-- `p × 2^s`, nearest integer, ties to even: `rne_shift` of R94. -/
def rneShift (p s : Int) : Int :=
  if 0 ≤ s then p * (2 ^ s.toNat : Nat)
  else
    let d : Int := (2 ^ (-s).toNat : Nat)
    let q := p.fdiv d
    let r := p.fmod d
    if d < 2 * r ∨ (2 * r = d ∧ q % 2 = 1) then q + 1 else q

/-- ⌊log2(num / den)⌋ for positive num and den. -/
def log2Rat (num den : Nat) : Int :=
  let k : Int := (Nat.log2 num : Int) - Nat.log2 den
  let fits := if 0 ≤ k then decide (den * 2 ^ k.toNat ≤ num) else decide (den ≤ num * 2 ^ (-k).toNat)
  if fits then k else k - 1

/-- The magnitude num/den × 2^e rounded once to the format, ties to even: the code without its sign, which may be
`infCode` or above when the value is beyond the largest finite one. -/
def Fmt.roundMag (f : Fmt) (num den : Nat) (e : Int) : Nat :=
  if num = 0 then 0
  else
    let emin : Int := 1 - (f.bias : Int)
    let ex := max (log2Rat num den + e) emin
    let q := e - (ex - f.mb)
    let n := if 0 ≤ q then rneDiv (num * 2 ^ q.toNat) den else rneDiv num (den * 2 ^ (-q).toNat)
    (ex - emin).toNat * 2 ^ f.mb + n

/-- A code with its sign bit. -/
def Fmt.signed (f : Fmt) (neg : Bool) (code : Nat) : Nat := code + b2n neg * 2 ^ f.width

/-- A rational value rounded once; overflow gives infinity (R82). -/
def Fmt.ofRat (f : Fmt) (neg : Bool) (num den : Nat) (e : Int) : Nat :=
  f.signed neg (min (f.roundMag num den e) f.infCode)

/-- A value rounded once to the format, as R82 has it. -/
def Fmt.encode (f : Fmt) : FVal → Nat
  | .nan => f.nanCode
  | .inf neg => f.signed neg f.infCode
  | .fin neg m e => f.ofRat neg m 1 e

/-- The format's largest finite magnitude code. -/
def Fmt.maxCode (f : Fmt) : Nat :=
  if f.hasInf then f.infCode - 1 else if f == e4m3 then 2 ^ f.width - 2 else 2 ^ f.width - 1

/-- A finite value as a signed mantissa at a common exponent `e` not above its own. -/
def scaleTo (m : Nat) (e e0 : Int) : Nat := m * 2 ^ (e - e0).toNat

def sgn (neg : Bool) (m : Nat) : Int := if neg then -(m : Int) else m

/-- The exact sum of two finite values; a zero sum is +0 unless both are −0 (IEEE 754). -/
def finAdd (n1 : Bool) (m1 : Nat) (e1 : Int) (n2 : Bool) (m2 : Nat) (e2 : Int) : FVal :=
  let e0 := min e1 e2
  let s := sgn n1 (scaleTo m1 e1 e0) + sgn n2 (scaleTo m2 e2 e0)
  if s = 0 then .fin (n1 && n2) 0 e0 else .fin (decide (s < 0)) s.natAbs e0

namespace FVal

def neg : FVal → FVal
  | .nan => .nan
  | .inf n => .inf (!n)
  | .fin n m e => .fin (!n) m e

def abs : FVal → FVal
  | .nan => .nan
  | .inf _ => .inf false
  | .fin _ m e => .fin false m e

def isNeg : FVal → Bool
  | .nan => false
  | .inf n => n
  | .fin n _ _ => n

def isZero : FVal → Bool
  | .fin _ m _ => m == 0
  | _ => false

def isFinite : FVal → Bool
  | .fin _ _ _ => true
  | _ => false

/-- IEEE 754 addition, exact. -/
def add : FVal → FVal → FVal
  | .nan, _ | _, .nan => .nan
  | .inf a, .inf b => if a = b then .inf a else .nan
  | .inf a, _ => .inf a
  | _, .inf b => .inf b
  | .fin n1 m1 e1, .fin n2 m2 e2 => finAdd n1 m1 e1 n2 m2 e2

/-- IEEE 754 multiplication, exact. -/
def mul : FVal → FVal → FVal
  | .nan, _ | _, .nan => .nan
  | .inf a, .inf b => .inf (a != b)
  | .inf a, .fin n m _ => if m = 0 then .nan else .inf (a != n)
  | .fin n m _, .inf b => if m = 0 then .nan else .inf (n != b)
  | .fin n1 m1 e1, .fin n2 m2 e2 => .fin (n1 != n2) (m1 * m2) (e1 + e2)

/-- Value order of two values that are not NaN: `a < b` (zeros of either sign are equal). -/
def lt : FVal → FVal → Bool
  | .nan, _ | _, .nan => false
  | .inf a, .inf b => a && !b
  | .inf a, _ => a
  | _, .inf b => !b
  | .fin n1 m1 e1, .fin n2 m2 e2 =>
    let e0 := min e1 e2
    decide (sgn n1 (scaleTo m1 e1 e0) < sgn n2 (scaleTo m2 e2 e0))

end FVal

/-- Integer square root by bits: the largest r with r² ≤ n, looking at `k` bits of r. -/
def isqrtGo (n : Nat) : Nat → Nat → Nat
  | 0, r => r
  | k + 1, r => let t := r + 2 ^ k; isqrtGo n k (if t * t ≤ n then t else r)

def isqrt (n : Nat) : Nat := isqrtGo n (Nat.log2 n / 2 + 1) 0

/-- The correctly rounded reciprocal (R56, R82): ±0 gives ±infinity, ±infinity gives ±0. -/
def Fmt.recip (f : Fmt) : FVal → Nat
  | .nan => f.nanCode
  | .inf n => f.signed n 0
  | .fin n m e => if m = 0 then f.signed n f.infCode else f.ofRat n 1 m (-e)

/-- The correctly rounded reciprocal square root (R56, R82): below zero NaN, +infinity gives +0; IEEE 754 gives
±infinity for ±0. The root is taken to 2·60 more bits than the value has, with a sticky bit, so one rounding remains. -/
def Fmt.rsqrt (f : Fmt) : FVal → Nat
  | .nan => f.nanCode
  | .inf n => if n then f.nanCode else 0
  | .fin n m e =>
    if m = 0 then f.signed n f.infCode
    else if n then f.nanCode
    else
      -- 1/√(m·2^e) with e even: √(2^(2k)/m)·2^(−k − e/2)
      let (m', e') := if e % 2 = 0 then (m, e) else (2 * m, e - 1)
      let k := Nat.log2 m' + 64
      let v := 2 ^ (2 * k) / m'
      let r := isqrt v
      let sticky := if r * r * m' = 2 ^ (2 * k) then 0 else 1
      f.ofRat false (2 * r + sticky) 1 (-(k : Int) - e' / 2 - 1)

/-- Fixed-point fraction bits of `exp2Frac`. -/
def exp2Prec : Nat := 160

/-- 2^(frac / 2^k) in fixed point with `exp2Prec` fraction bits: the product of the roots 2^(2^−i) for the set bits of
`frac`, most significant first. -/
def exp2Frac (frac : Nat) : Nat → Nat → Nat → Nat
  | 0, _, acc => acc
  | k + 1, root, acc =>
    let root' := isqrt (root * 2 ^ exp2Prec)
    exp2Frac frac k root' (if bitOf frac k then acc * root' / 2 ^ exp2Prec else acc)

/-- The correctly rounded power of two (R56, R82). Non-integer powers are irrational; 160 fraction bits decide the
rounding of every fp32 operand, and a sticky bit keeps an inexact value off a tie. -/
def Fmt.exp2 (f : Fmt) : FVal → Nat
  | .nan => f.nanCode
  | .inf n => if n then 0 else f.infCode
  | .fin n m e =>
    if m = 0 then f.ofRat false 1 1 0
    else if 12 ≤ (Nat.log2 m : Int) + e then (if n then 0 else f.infCode)
    else if (Nat.log2 m : Int) + e < -64 then f.ofRat false 1 1 0
    else
      let k := (-e).toNat
      let x : Int := sgn n (m * 2 ^ e.toNat)        -- the operand is x / 2^k
      let ip := x.fdiv (2 ^ k : Nat)
      let fr := (x.fmod (2 ^ k : Nat)).toNat
      if fr = 0 then f.ofRat false 1 1 ip
      else f.ofRat false (2 * exp2Frac fr k (2 * 2 ^ exp2Prec) (2 ^ exp2Prec) + 1) 1 (ip - exp2Prec - 1)

/-- Wrap to the signed 32-bit range. -/
def wrap32 (x : Int) : Int := signedOf 32 (x % (2 ^ 32 : Nat)).toNat

/-- An integer as a 32-bit pattern. -/
def toW32 (x : Int) : W32 := BitVec.ofInt 32 x

/-- Limit to int32 and count the limit (R88). -/
def sat32 (x : Int) : Int × Nat :=
  if x < -(2 ^ 31 : Nat) then (-(2 ^ 31 : Nat), 1) else if (2 ^ 31 : Nat) ≤ x then ((2 ^ 31 : Nat) - 1, 1) else (x, 0)

/-- `rescale` of R94 for int16: the code and the saturation count. `sh` is ec + er − 284 + u + f. -/
def limitFixed (lim : Nat) (r : Int) : Int × Nat :=
  if (lim : Int) - 1 < r then (lim - 1, 1) else if r < -(lim : Int) then (-(lim : Int), 1) else (r, 0)

/-- The output formats of OFMT (R60). -/
inductive OutFmt where | bf16 | fp16 | int16 | int32
  deriving DecidableEq, Repr

/-- `rescale` of R94: the code in OFMT and the saturation count. -/
def rescale (acc : Int) (mc : Nat) (ec : Int) (mr : Nat) (er : Int) (u : Int) (o : OutFmt) : Nat × Nat :=
  let f : Int := if o = .int16 then 0 else 16
  let lim := if o = .int16 then 2 ^ 15 else 2 ^ 47
  let (r, sat) := limitFixed lim (rneShift (acc * mc * mr) (ec + er - 284 + u + f))
  match o with
  | .int16 => ((r % (2 ^ 16 : Nat)).toNat, sat)
  | .fp16 =>
    let c := fp16.roundMag r.natAbs 1 (-16)
    if fp16.infCode ≤ c then (fp16.signed (decide (r < 0)) fp16.maxCode, 1)
    else (if c = 0 then 0 else fp16.signed (decide (r < 0)) c, sat)
  | _ =>
    let c := bf16.roundMag r.natAbs 1 (-16)
    (if c = 0 then 0 else bf16.signed (decide (r < 0)) c, sat)

/-- The output of the bf16 path (R95): the fp32 accumulator × m_c × 2^(e_c − 142), rounded once. -/
def rescaleBf (acc : FVal) (mc : Nat) (ec : Int) (o : OutFmt) : Nat × Nat :=
  match o with
  | .int16 =>
    match acc with
    | .nan => (0, 1)
    | .inf n => (if n then 0x8000 else 0x7FFF, 1)
    | .fin n m e =>
      let r := rneShift (sgn n (m * mc)) (e + ec - 142)
      let (v, sat) := limitFixed (2 ^ 15) r
      ((v % (2 ^ 16 : Nat)).toNat, sat)
  | .int32 => (fp32.encode acc, 0)
  | _ =>
    let f := if o = .fp16 then fp16 else bf16
    match acc with
    | .nan => (f.nanCode, 0)
    | .inf n => (f.signed n f.infCode, 0)
    | .fin n m e =>
      let c := f.roundMag (m * mc) 1 (e + ec - 142)
      if f.infCode ≤ c then (f.signed n f.maxCode, 1) else (f.signed n c, 0)

/-- fp32 rounding of the bf16 path (R90): a result below 2^−126 becomes zero of the same sign. -/
def fp32Flush (v : FVal) : FVal :=
  match v with
  | .fin n m e => let c := fp32.roundMag m 1 e; if c < 2 ^ 23 then .fin n 0 0 else fp32.decode (fp32.signed n (min c fp32.infCode))
  | w => w

/-- A subnormal input of the bf16 path is taken as zero of the same sign (R90). -/
def flushIn (f : Fmt) (x : Nat) : FVal :=
  match f.decode x with
  | .fin n m e => if bitsOf x (f.width - 1) f.mb == 0 then .fin n 0 e else .fin n m e
  | w => w

/-- Round to a signed integer, ties to even: a finite value. -/
def roundInt (n : Bool) (m : Nat) (e : Int) : Int := rneShift (sgn n m) e

end Sys2Proof.Machine
end

