-- ==== Sys2Proof/Machine/Isp.lean ====
section
/-! DEFINITION. The image pipeline's arithmetic (R323, R334–R344): raw unpacking, pixel stages, scaling, formats and the
statistics record, as functions of the pipe block and the frame's samples. -/

namespace Sys2Proof.Machine

/-! ### The pipe block (R333): entry i of the list is word i + 3 -/

abbrev PipeBlock := List Word

namespace PipeBlock

def word (b : PipeBlock) (i : Nat) : Word := wordAt b (i - 3)
def enable (b : PipeBlock) : Bool := (b.word 3).getLsbD 0
def port (b : PipeBlock) : Nat := (b.word 3).fld 3 1
def vc (b : PipeBlock) : Nat := (b.word 3).fld 7 4
def dataType (b : PipeBlock) : Nat := (b.word 3).fld 13 8
def mosaic (b : PipeBlock) : Nat := (b.word 3).fld 17 14
def defectEn (b : PipeBlock) : Bool := (b.word 3).getLsbD 18
def width (b : PipeBlock) : Nat := (b.word 3).fld 45 32
def height (b : PipeBlock) : Nat := (b.word 3).fld 59 46
def cfaMap (b : PipeBlock) : Nat := (b.word 4).fld 31 0
def fpsMax (b : PipeBlock) : Nat := (b.word 4).fld 39 32
def black (b : PipeBlock) (k : Nat) : Nat := (b.word 5).fld (16 * k + 15) (16 * k)
def gain (b : PipeBlock) (k : Nat) : Nat := (b.word 6).fld (16 * k + 15) (16 * k)
def matrix (b : PipeBlock) (r k : Nat) : Int := signedOf 16 ((b.word (7 + r)).fld (16 * k + 15) (16 * k))
def statsHandle (b : PipeBlock) : Word := BitVec.ofNat 64 ((b.word 10).fld 31 0)
def statsBuffers (b : PipeBlock) : Nat := (b.word 10).fld 39 32
def yuv (b : PipeBlock) : Nat := (b.word 10).fld 41 40
def statsOffset (b : PipeBlock) : Nat := (b.word 11).fld 37 0
def toneEntry (b : PipeBlock) (i : Nat) : Nat := (b.word (12 + i / 4)).fld (16 * (i % 4) + 15) (16 * (i % 4))
def normOffset (b : PipeBlock) (k : Nat) : Nat := (b.word 93).fld (16 * k + 15) (16 * k)
def normScale (b : PipeBlock) (k : Nat) : Nat := (b.word 94).fld (16 * k + 15) (16 * k)

/-- The channel of pixel (y, x) under a map (R334). -/
def cfaAt (map y x : Nat) : Nat := bitsOf map (8 * (y % 4) + 2 * (x % 4) + 1) (8 * (y % 4) + 2 * (x % 4))
def cfa (b : PipeBlock) (y x : Nat) : Nat := cfaAt b.cfaMap y x

end PipeBlock

/-! ### Output descriptors (R339) -/

structure OutDesc where
  enable : Bool
  format : Nat
  boxK : Nat
  linear : Bool
  cropX : Nat
  cropY : Nat
  cropW : Nat
  cropH : Nat
  outW : Nat
  outH : Nat
  buffers : Nat
  knot : Nat
  handle : Word
  knotWeave : Word
  offset : Nat
  deriving DecidableEq, Repr

/-- Output descriptor `j` of a block. -/
def PipeBlock.output (b : PipeBlock) (j : Nat) : OutDesc :=
  let w (i : Nat) : Word := b.word (77 + 4 * j + i)
  ⟨(w 0).getLsbD 0, (w 0).fld 3 1, (w 0).fld 5 4, (w 0).getLsbD 6, (w 0).fld 21 8, (w 0).fld 35 22, (w 0).fld 49 36,
    (w 0).fld 63 50, (w 1).fld 13 0, (w 1).fld 27 14, (w 1).fld 35 28, (w 1).fld 47 36, BitVec.ofNat 64 ((w 2).fld 31 0),
    BitVec.ofNat 64 ((w 2).fld 63 32), (w 3).fld 37 0⟩

/-- The enabled outputs, each with its number. -/
def PipeBlock.outputs (b : PipeBlock) : List (Nat × OutDesc) :=
  ((List.range 4).map fun j => (j, b.output j)).filter (·.2.enable)

/-- Mosaics with one plane: mono and IR-only. -/
def monoMosaic (m : Nat) : Bool := m == 5 || m == 6

/-- Bytes of each plane of an output (R341). -/
def OutDesc.planeBytes (o : OutDesc) (mosaic : Nat) : List Nat :=
  let n := o.outW * o.outH
  match o.format with
  | 0 => [n, n / 2]
  | 1 => [3 * n]
  | 2 | 3 => [n]
  | _ => List.replicate (if monoMosaic mosaic then 1 else 3) (2 * n)

/-- The buffer size S. -/
def OutDesc.size (o : OutDesc) (mosaic : Nat) : Nat := ((o.planeBytes mosaic).map fun n => roundUp n 128).sum

/-! ### Which blocks are legal (R333, R334, R339) -/

/-- Bits a sample of a data type (R323). -/
def rawBits (dt : Nat) : Option Nat :=
  match dt with
  | 0x2A => some 8 | 0x2B => some 10 | 0x2C => some 12 | 0x2D => some 14 | 0x2E => some 16 | 0x2F => some 20
  | _ => none

/-- The map's codes in raster order. -/
def cfaCodes (map : Nat) : List Nat := (List.range 16).map fun i => PipeBlock.cfaAt map (i / 4) (i % 4)

/-- The map repeats every two rows and columns. -/
def cfaPeriodic (map : Nat) : Bool :=
  (List.range 16).all fun i => PipeBlock.cfaAt map (i / 4) (i % 4) == PipeBlock.cfaAt map (i / 4 % 2) (i % 4 % 2)

/-- The map's 2 × 2 cell. -/
def cfaCell (map : Nat) : List Nat :=
  [PipeBlock.cfaAt map 0 0, PipeBlock.cfaAt map 0 1, PipeBlock.cfaAt map 1 0, PipeBlock.cfaAt map 1 1]

/-- Legal maps of a mosaic (R334). -/
def cfaLegal (mosaic map : Nat) : Bool :=
  let cs := cfaCodes map
  match mosaic with
  | 0 => cfaPeriodic map && cs.all (· ≤ 2) && (cfaCell map).count 0 == 1 && (cfaCell map).count 2 == 1
  | 1 | 2 => cfaPeriodic map && cs.all (· ≤ 2)
  | 3 | 4 => (List.range 4).all fun k => cs.contains k
  | 5 | 6 => cs.all (· == 0)
  | _ => false

/-- An enabled output is legal in a block. -/
def OutDesc.ok (o : OutDesc) (mosaic width height : Nat) : Bool :=
  let u := 2 ^ o.boxK
  let wb := o.cropW / u; let hb := o.cropH / u
  decide (o.format ≤ 4) && o.cropX % u == 0 && o.cropY % u == 0 && o.cropW % u == 0 && o.cropH % u == 0
    && decide (0 < o.cropW) && decide (0 < o.cropH) && decide (o.cropX + o.cropW ≤ width) && decide (o.cropY + o.cropH ≤ height)
    && decide (wb ≤ 4 * o.outW) && decide (o.outW ≤ wb) && decide (hb ≤ 4 * o.outH) && decide (o.outH ≤ hb)
    && (o.format != 0 || (o.outW % 2 == 0 && o.outH % 2 == 0)) && decide (1 ≤ o.buffers)
    && (o.format != 3 || mosaic == 4 || mosaic == 6) && o.offset % 128 == 0

/-- Reserved bits of a block: none may be set. -/
def PipeBlock.reserved (b : PipeBlock) : Bool :=
  let any (i hi lo : Nat) : Bool := (b.word i).fld hi lo != 0
  any 3 31 19 || any 3 63 60 || any 4 63 40 || any 10 63 42 || any 11 63 38 || any 76 63 16
    || (List.range 4).any fun j => any (77 + 4 * j) 7 7 || any (78 + 4 * j) 63 48 || any (80 + 4 * j) 63 38

/-- Every field of a block lies in its range (R333). -/
def PipeBlock.ok (b : PipeBlock) : Bool :=
  let dim (n : Nat) : Bool := decide (64 ≤ n) && decide (n ≤ 8192) && n % 4 == 0
  !b.reserved && (rawBits b.dataType).isSome && decide (b.mosaic ≤ 6) && dim b.width && dim b.height
    && decide (1 ≤ b.fpsMax) && decide (b.fpsMax ≤ 240) && decide (1 ≤ b.statsBuffers) && decide (b.yuv ≤ 2)
    && b.statsOffset % 128 == 0 && cfaLegal b.mosaic b.cfaMap
    && b.outputs.all (fun o => o.2.ok b.mosaic b.width b.height)
    && decide ((b.outputs.map fun o => o.2.size b.mosaic).sum ≤ 8 * b.width * b.height)

/-! ### Raw data types as CSI-2 packs them (R323, R335) -/

def unpack10 : List Byte → List Nat
  | a :: b :: c :: d :: l :: r =>
    let s (x : Byte) (i : Nat) : Nat := x.toNat * 4 + bitsOf l.toNat (2 * i + 1) (2 * i)
    s a 0 :: s b 1 :: s c 2 :: s d 3 :: unpack10 r
  | _ => []

def unpack12 : List Byte → List Nat
  | a :: b :: l :: r => (a.toNat * 16 + bitsOf l.toNat 3 0) :: (b.toNat * 16 + bitsOf l.toNat 7 4) :: unpack12 r
  | _ => []

def unpack14 : List Byte → List Nat
  | a :: b :: c :: d :: x :: y :: z :: r =>
    let l := x.toNat + 256 * y.toNat + 65536 * z.toNat
    let s (v : Byte) (i : Nat) : Nat := v.toNat * 64 + bitsOf l (6 * i + 5) (6 * i)
    s a 0 :: s b 1 :: s c 2 :: s d 3 :: unpack14 r
  | _ => []

def unpack16 : List Byte → List Nat
  | a :: b :: r => (a.toNat * 256 + b.toNat) :: unpack16 r
  | _ => []

/-- RAW20: each sample as two ten-bit parts, the upper first, packed as RAW10 packs samples (PRESUMED, log entry 9). -/
def unpack20 : List Byte → List Nat
  | a :: b :: c :: d :: l :: r =>
    let s (x : Byte) (i : Nat) : Nat := x.toNat * 4 + bitsOf l.toNat (2 * i + 1) (2 * i)
    (s a 0 * 1024 + s b 1) :: (s c 2 * 1024 + s d 3) :: unpack20 r
  | _ => []

/-- The samples of a long packet of `bits`-bit samples. -/
def unpackRaw (bits : Nat) (bs : List Byte) : List Nat :=
  match bits with
  | 8 => bs.map BitVec.toNat
  | 10 => unpack10 bs
  | 12 => unpack12 bs
  | 14 => unpack14 bs
  | 16 => unpack16 bs
  | _ => unpack20 bs

/-! ### Pixel stages (R335–R338) -/

abbrev Plane := List (List Nat)

def Plane.at_ (p : Plane) (y x : Nat) : Nat := (p.getD y []).getD x 0

/-- A plane computed pixel by pixel. -/
def Plane.make (h w : Nat) (f : Nat → Nat → Nat) : Plane := (List.range h).map fun y => (List.range w).map (f y)

def max20 : Nat := 2 ^ 20 - 1

/-- Indexes within `r` of `i`, below `n`. -/
def around (n r i : Nat) : List Nat := rangeFrom (i - r) (min (i + r + 1) n - (i - r))

/-- Rounded mean, or 0 of nothing: ⌊(2S + n) / 2n⌋ (R336). -/
def meanOf (l : List Nat) : Nat := (2 * l.sum + l.length) / (2 * l.length)

/-- Defect correction of one sample (R335). -/
def defectFix (b : PipeBlock) (p : Plane) (y x : Nat) : Nat :=
  let s := p.at_ y x
  let others := (around b.height 2 y).flatMap fun v => (around b.width 2 x).filterMap fun u =>
    if (v != y || u != x) && b.cfa v u == b.cfa y x then some (p.at_ v u) else none
  match others.max?, others.min? with
  | some hi, some lo => if hi < s then hi else if s < lo then lo else s
  | _, _ => s

/-- Black level, defect correction and gain over the raw samples of `bits` bits (R335). -/
def prepared (b : PipeBlock) (bits : Nat) (raw : Plane) : Plane :=
  let h := b.height; let w := b.width
  let p1 := Plane.make h w fun y x => raw.at_ y x * 2 ^ (20 - bits) - b.black (b.cfa y x) * 16
  let p2 := if b.defectEn then Plane.make h w (defectFix b p1) else p1
  Plane.make h w fun y x => min max20 (rneShift (p2.at_ y x * b.gain (b.cfa y x)) (-12)).toNat

/-- Channel `k` at a pixel (R336). -/
def demosaic (b : PipeBlock) (p : Plane) (y x k : Nat) : Nat :=
  if b.cfa y x = k then p.at_ y x
  else
    let win (r : Nat) : List Nat := (around b.height r y).flatMap fun v => (around b.width r x).filterMap fun u =>
      if b.cfa v u = k then some (p.at_ v u) else none
    match win 1 with
    | [] => (match win 2 with | [] => 0 | l => meanOf l)
    | l => meanOf l

/-- Channels that a mosaic defines (R334). -/
def mosaicChannels (m : Nat) : Nat := if m < 3 then 3 else if m < 5 then 4 else 1

/-- Linear colour row `r` at a pixel (R337). -/
def linearColour (b : PipeBlock) (p : Plane) (r y x : Nat) : Nat :=
  let sum : Int := ((List.range (mosaicChannels b.mosaic)).map fun k => b.matrix r k * (demosaic b p y x k : Int)).sum
  (clampInt 0 max20 (rneShift sum (-12))).toNat

/-- Colour planes R, G, B; the single plane of mono and IR-only. -/
def colourPlanes (b : PipeBlock) (p : Plane) : List Plane :=
  if monoMosaic b.mosaic then [p] else (List.range 3).map fun r => Plane.make b.height b.width (linearColour b p r)

/-- The infrared plane (R337). -/
def irPlane (b : PipeBlock) (p : Plane) : Plane :=
  if b.mosaic = 6 then p else Plane.make b.height b.width fun y x => demosaic b p y x 3

/-- The tone curve (R338). -/
def tone (b : PipeBlock) (x : Nat) : Nat :=
  let i := x / 4096
  let f : Int := x % 4096
  let d : Int := (b.toneEntry (i + 1) : Int) - b.toneEntry i
  (clampInt 0 65535 (b.toneEntry i + (d * f + 2048).fdiv 4096)).toNat

/-! ### Scaling (R340) -/

/-- One line resampled from its first `wb` values to `n`. -/
def resample (wb n : Nat) (l : List Nat) : List Nat :=
  (List.range n).map fun i =>
    let sx := (clampInt 0 ((wb - 1) * 65536 : Nat) (((2 * i + 1) * wb * 32768 / n : Nat) - 32768)).toNat
    let a := sx / 65536; let f := sx % 65536
    let va := l.getD a 0
    let vb := if a + 1 < wb then l.getD (a + 1) 0 else va
    (va * (65536 - f) + vb * f + 32768) / 65536

/-- A plane cropped, decimated and resampled to an output's size. -/
def scalePlane (o : OutDesc) (p : Plane) : Plane :=
  let u := 2 ^ o.boxK
  let wb := o.cropW / u; let hb := o.cropH / u
  let dec := Plane.make hb wb fun v c =>
    meanOf ((List.range u).flatMap fun i => (List.range u).map fun j => p.at_ (o.cropY + v * u + i) (o.cropX + c * u + j))
  let hor := dec.map (resample wb o.outW)
  let cols := (List.range o.outW).map fun x => resample hb o.outH (hor.map fun r => r.getD x 0)
  Plane.make o.outH o.outW fun y x => (cols.getD x []).getD y 0

/-! ### Formats (R341) -/

/-- A rational rounded once to an integer, ties to even. -/
def rneRat (n : Int) (den : Nat) : Int :=
  let q := n.fdiv den
  let r := n.fmod den
  if (den : Int) < 2 * r ∨ (2 * r = den ∧ q % 2 = 1) then q + 1 else q

/-- A rational rounded once and limited to a byte. -/
def byteOf (n : Int) (den : Nat) : Byte := BitVec.ofNat 8 (clampInt 0 255 (rneRat n den)).toNat

/-- Luma coefficients in ten-thousandths: BT.601 or BT.709. -/
def lumaCoef (yuv : Nat) : Nat × Nat × Nat := if yuv = 0 then (2990, 5870, 1140) else (2126, 7152, 722)

/-- 10,000 times luma of toned R, G, B. -/
def luma (yuv r g b : Nat) : Nat := let (kr, kg, kb) := lumaCoef yuv; kr * r + kg * g + kb * b

/-- Y of toned R, G, B (8 bits), in the standard's range. -/
def yByte (yuv r g b : Nat) : Byte :=
  let y : Int := luma yuv r g b
  if yuv = 2 then byteOf (16 * 655350000 + 219 * y) 655350000 else byteOf (255 * y) 655350000

/-- A chroma byte from four times the component and four times the luma. -/
def chroma (yuv k4 y4 k : Nat) : Byte :=
  let den := 4 * 65535 * 2 * (10000 - k)
  let d : Int := (10000 * k4 : Nat) - (y4 : Int)
  byteOf (128 * den + (if yuv = 2 then 224 else 255) * d) den

/-- (v − offset) × scale with v = n / den, exact and rounded once to bf16. -/
def normBf16 (n den off scale : Nat) : Nat :=
  let o := bf16.decode off; let s := bf16.decode scale
  match o, s with
  | .fin no m e, .fin ns ms es =>
    let e0 := min e 0
    let num : Int := (n * 2 ^ (-e0).toNat : Nat) - sgn no (den * m * 2 ^ (e - e0).toNat)
    let z := num.natAbs * ms
    bf16.ofRat (z != 0 && (decide (num < 0) != ns)) z den (e0 + es)
  | .fin no m e, s =>
    let e0 := min e 0
    let num : Int := (n * 2 ^ (-e0).toNat : Nat) - sgn no (den * m * 2 ^ (e - e0).toNat)
    bf16.encode (FVal.mul (.fin (decide (num < 0)) num.natAbs 0) s)
  | o, s => bf16.encode (FVal.mul (FVal.add (.fin false n 0) o.neg) s)

/-- A plane's bytes, padded to a multiple of 128. -/
def padPlane (bs : List Byte) : List Byte := bs ++ List.replicate (roundUp bs.length 128 - bs.length) 0

/-- Pixels of an output in raster order. -/
def OutDesc.pixels (o : OutDesc) : List (Nat × Nat) := (List.range o.outH).flatMap fun y => (List.range o.outW).map fun x => (y, x)

/-- The buffer that an output writes for a frame, from its colour planes and its infrared plane. -/
def OutDesc.buffer (o : OutDesc) (b : PipeBlock) (colour : List Plane) (ir : Plane) : List Byte :=
  let lin := if o.format = 3 then [scalePlane o ir] else colour.map (scalePlane o)
  let toned : List Plane := lin.map fun p => p.map fun r => r.map (tone b)
  let ch (c y x : Nat) : Nat := Plane.at_ ((toned[c]?).getD (toned.headD [])) y x
  let yAt (p : Nat × Nat) : Byte := yByte b.yuv (ch 0 p.1 p.2) (ch 1 p.1 p.2) (ch 2 p.1 p.2)
  match o.format with
  | 0 =>
    let uv := (List.range (o.outH / 2)).flatMap fun v => (List.range (o.outW / 2)).flatMap fun u =>
      let s (c : Nat) : Nat := ch c (2 * v) (2 * u) + ch c (2 * v) (2 * u + 1) + ch c (2 * v + 1) (2 * u) + ch c (2 * v + 1) (2 * u + 1)
      let y4 := luma b.yuv (s 0) (s 1) (s 2)
      let (kr, _, kb) := lumaCoef b.yuv
      if monoMosaic b.mosaic then [128, 128] else [chroma b.yuv (s 2) y4 kb, chroma b.yuv (s 0) y4 kr]
    padPlane (o.pixels.map yAt) ++ padPlane uv
  | 1 => padPlane (o.pixels.flatMap fun p => (List.range 3).map fun c => byteOf (255 * ch c p.1 p.2 : Nat) 65535)
  | 2 => padPlane (o.pixels.map yAt)
  | 3 => padPlane (o.pixels.map fun p => byteOf (255 * ch 0 p.1 p.2 : Nat) 65535)
  | _ => ((lin.zip toned).zipIdx).flatMap fun (pt, k) =>
      padPlane (o.pixels.flatMap fun p => leBytes 2 (if o.linear then normBf16 (Plane.at_ pt.1 p.1 p.2) (2 ^ 20) (b.normOffset k) (b.normScale k)
        else normBf16 (Plane.at_ pt.2 p.1 p.2) 65535 (b.normOffset k) (b.normScale k)))

/-! ### Statistics (R344) -/

/-- Bounds of zone `u` of 16 along `n`. -/
def zoneRange (n u : Nat) : List Nat := rangeFrom (u * n / 16) ((u + 1) * n / 16 - u * n / 16)

/-- The six values of zone (u, v). -/
def zoneEntry (b : PipeBlock) (p : Plane) (u v : Nat) : List Nat :=
  let px := (zoneRange b.height v).flatMap fun y => (zoneRange b.width u).map fun x => (y, x)
  let sumOf (k : Nat) : Nat := (px.map fun q => if b.cfa q.1 q.2 = k then p.at_ q.1 q.2 / 256 else 0).sum
  let clipped := (px.filter fun q => p.at_ q.1 q.2 == max20).length
  let focusCh := if monoMosaic b.mosaic then 0 else 1
  let last := (u + 1) * b.width / 16
  let focus := (px.map fun q =>
    if b.cfa q.1 q.2 = focusCh ∧ q.2 + 2 < last then
      ((p.at_ q.1 q.2 : Int) - p.at_ q.1 (q.2 + 2)).natAbs / 256
    else 0).sum
  [sumOf 0, sumOf 1, sumOf 2, sumOf 3, clipped, focus]

/-- The zones in the order of the record. -/
def allZones (b : PipeBlock) (p : Plane) : List (List Nat) :=
  (List.range 16).flatMap fun v => (List.range 16).map fun u => zoneEntry b p u v

/-- IR_RATIO (R344). -/
def irRatio (zs : List (List Nat)) : Nat :=
  let s (i : Nat) : Nat := (zs.map fun z => z.getD i 0).sum
  let den := s 0 + s 1 + s 2
  if den = 0 then 0 else fp32.ofRat false (s 3) den 0

/-- HISTOGRAM of Y_U8 at full resolution. -/
def histogram (b : PipeBlock) (colour : List Plane) : List Nat :=
  let toned : List Plane := colour.map fun p => p.map fun r => r.map (tone b)
  let ch (c y x : Nat) : Nat := Plane.at_ ((toned[c]?).getD (toned.headD [])) y x
  let ys := (List.range b.height).flatMap fun y => (List.range b.width).map fun x => (yByte b.yuv (ch 0 y x) (ch 1 y x) (ch 2 y x)).toNat
  (List.range 256).map fun i => ys.count i

/-- The record from byte 40 on: IR_RATIO, zones, histogram. -/
def statsTail (b : PipeBlock) (p : Plane) (colour : List Plane) : List Byte :=
  let zs := allZones b p
  leBytes 8 (irRatio zs) ++ List.replicate 16 0 ++ zs.flatMap (fun z => z.flatMap fun v => leBytes 4 v)
    ++ (histogram b colour).flatMap (fun v => leBytes 4 v) ++ List.replicate 960 0

end Sys2Proof.Machine
end

