-- ==== Sys2Proof/Machine/MemCmds.lean ====
section
/-! DEFINITION. Allocations and the host's memory commands (R165–R182, R234): ALLOC, FREE, PUT, GET, FLUSH, MIGRATE. -/

namespace Sys2Proof.Machine

/-! ### Handles (R166) -/

def handleWord (slot gen : Nat) : Word := mkWord [(slot, 0), (gen, 24)]
/-- The reserved bits of a 32-bit handle are not zero. -/
def handleBad (w : Word) : Bool := rsvBits w 23 16
def handleSlot (w : Word) : Nat := w.fld 15 0
def handleGen (w : Word) : Nat := w.fld 31 24

/-- The allocation a handle names. Under SCRUB_ON_FREE the handle is stale from admission (R234). -/
def Device.byHandle (d : Device) (w : Word) : Option Alloc :=
  (d.alloc? (handleSlot w)).filter fun a => a.gen == handleGen w && a.freeing.isNone
/-- The weave a handle names (R236). -/
def Device.weaveByHandle (d : Device) (w : Word) : Option Weave :=
  (d.weave? (handleSlot w)).filter fun v => v.gen == handleGen w

/-- The allocation is attached to a bound weave (R240). -/
def Device.isAttached (d : Device) (slot : Nat) : Bool :=
  d.weaves.any fun e => e.2.bound.isSome && e.2.attSlots.contains slot
/-- The allocation is the source of a loaded weave (R236). -/
def Device.isSource (d : Device) (slot : Nat) : Bool := d.weaves.any fun e => e.2.srcSlot == some slot

/-! ### Capacity (R163, R171, R172) -/

/-- Pages that Ubtur reserves in each half: 1 GiB (R163). -/
def reservePages : Nat := 16384
/-- Staging pages of a half (R176). -/
def stagingPages : Nat := 512

def Device.halfDram (d : Device) (h : Nat) : HalfDram := d.dram.halves.get HalfDram.init h
def Device.modHalfDram (d : Device) (h : Nat) (f : HalfDram → HalfDram) : Device :=
  { d with dram := { d.dram with halves := d.dram.halves.modify HalfDram.init h f } }

/-- Rank sets of a half in service; a range being copied to the spare counts once. -/
def HalfDram.inService (x : HalfDram) : Nat :=
  ((List.range 3).filter fun i =>
    let r := x.ranks.get .absent i
    r == .service || r == .copying).length

/-- DRAM of a half for allocations and their indexes, in bytes (R163, R287). -/
def Device.dramBytes (d : Device) (h : Nat) : Nat :=
  ((d.halfDram h).inService * d.dram.rankPages - reservePages - (d.halfDram h).retired.length) * pageBytes

/-- A command admitted earlier is still unanswered. -/
def Device.unanswered (d : Device) (id : CmdId) : Bool :=
  let t := d.port.tags.get {} (tagKey id.ctx id.tag)
  t.busy && t.gen == id.gen

/-- DRAM that an allocation takes in its home half: its pages, or 640 bytes of index a page when its home is peat;
while it migrates, both; after a migration to peat its old pages too, while a command admitted before it is unanswered (R171,
R182, R187). -/
def Device.dramUse (d : Device) (a : Alloc) : Nat :=
  let index := a.pages * 640
  let pages := a.pages * pageBytes
  match a.migrating with
  | some _ => index + pages
  | none => if a.peat then index + (if a.held.any d.unanswered then pages else 0) else pages

def Device.dramUsed (d : Device) (h : Nat) : Nat :=
  ((d.allocs.filter fun e => halfNum (flagHalf e.2.flags) == h).map fun e => d.dramUse e.2).sum

/-- Peat pages of an allocation page: those of its stored image, or 4 while it has none (R171, R186). -/
def Peat.pageUse (p : Peat) (page : Nat) : Nat := ((p.cells.get none page).map (·.2)).getD 4

def Device.peatUsed (d : Device) : Nat :=
  ((d.allocs.filter fun e => e.2.peat || e.2.migrating.isSome).map fun e => ((rangeFrom e.2.p0 e.2.pages).map d.peat.pageUse).sum).sum

/-- DRAM of a half has room for `n` more bytes; peat for `n` more allocation pages. -/
def Device.dramRoom (d : Device) (h n : Nat) : Bool := decide (d.dramUsed h + n ≤ d.dramBytes h)
def Device.peatRoom (d : Device) (pages : Nat) : Bool := decide (d.peatUsed + 4 * pages ≤ d.peat.allocPages)

/-! ### Making and ending allocations (R165, R166) -/

/-- A flags word that R170 or its reserved bits refuse; `host` for an ALLOC. -/
def flagsBad (w : Word) (pages : Nat) (host : Bool) : Bool :=
  let home := w.fld 1 0
  home == 3 || rsvBits w 63 17 || (home != 0 && !flagReadOnly w) || (flagPin w && flagWindow w != 0)
    || (flagWindow w != 0 && (host || !flagReadOnly w)) || (flagWriteBack w && flagReadOnly w)
    || (flagPlait w && !flagReadOnly w && !flagWriteBack w) || pages == 0 || decide (4194302 < pages)

/-- First page numbers that could start a run: 1, and the page after each allocation's guard page. -/
def runStarts (as : List (Nat × Alloc)) : List Nat := 1 :: as.map fun e => e.2.p0 + e.2.pages + 1

/-- Pages `p` to `p + n` are all free, within the space (R165). -/
def runFree (as : List (Nat × Alloc)) (p n : Nat) : Bool :=
  decide (p + n < 2 ^ 22) && as.all fun e => decide (p + n < e.2.p0) || decide (e.2.p0 + e.2.pages < p)

/-- The lowest first page of a free run of `n` pages and its guard page. -/
def freeRun (as : List (Nat × Alloc)) (n : Nat) : Option Nat :=
  ((runStarts as).filter fun p => runFree as p n).min?

/-- The lowest slot of a table of `n` that holds nothing. -/
def lowestFree {α : Type} (m : SMap (Option α)) (n : Nat) : Option Nat :=
  (List.range n).find? fun i => (m.get none i).isNone

/-- The lowest slot without a table entry, among listed entries only: the first gap in the listed keys. -/
def firstGap {α : Type} : SMap α → Nat → Nat
  | [], k => k
  | (j, _) :: m, k => if j = k then firstGap m (k + 1) else k

/-- The half's DRAM has room for the pages of an allocation. -/
def Device.homeOf (d : Device) (flags : Word) (pages : Nat) : Option Bool :=
  let h := halfNum (flagHalf flags)
  let dram := d.dramRoom h (pages * pageBytes)
  let peat := d.peatRoom pages && d.dramRoom h (pages * 640)
  match flags.fld 1 0 with
  | 0 => if dram then some false else none
  | 1 => if peat then some true else none
  | _ => if dram then some false else if peat then some true else none

/-- A new allocation in the lowest free slot, at the lowest free run, with the tenant's next generation; frames that it reserves
are taken from the cache (R172). -/
def Device.makeAlloc (d : Device) (now : Nat) (flags : Word) (pages : Nat) (peat : Bool) (plan : Option Nat) (map : Bool) (win p0 : Nat) :
    Nat × Alloc × Device :=
  let slot := firstGap d.ten.allocs 0
  let a : Alloc := ⟨d.ten.allocGen, p0, pages, flags, peat, plan, map, win, none, [], [], none⟩
  let d := { d.setAlloc slot (some a) with
    ten := { (d.setAlloc slot (some a)).ten with allocGen := (d.ten.allocGen + 1) % 256 } }
  (slot, a, if a.frames = 0 then d else d.refit now (flagHalf flags))

/-- The logical pages of the stored images of a page range. -/
def Peat.cellsIn (p : Peat) (p0 n : Nat) : List Nat :=
  (p.cells.filter fun e => decide (p0 ≤ e.1) && decide (e.1 < p0 + n)).flatMap fun e => match e.2 with
    | some (f, k) => rangeFrom f k
    | none => []

/-- The stored images of a page range leave peat; fills that wait for their pages go on without them. -/
def Device.dropCells (d : Device) (now p0 n : Nat) : Device :=
  let lpns := d.peat.cellsIn p0 n
  let d := d.modPeat fun p =>
    { lpns.foldl (fun p l => (p.outdate l).release now l) p with cells := p.cells.clear p0 (p0 + n) }
  { d with mem := d.mem.forgetLpns lpns }

/-- An allocation ends (R166): its pages are unowned, dirty lines and staged pages discarded, its scans answered
STALE_GEN (R418), and a FLUSH or MIGRATE of it with them. -/
def Device.endAlloc (d : Device) (now slot : Nat) : Device :=
  match d.alloc? slot with
  | none => d
  | some a =>
    let scans := (d.hub.scanQ.flatMap (·.2) ++ d.hub.scanRun.filterMap (·.2)).filter fun s => s.slot == slot && s.allocGen == a.gen
    let ids := scans.map (·.id) ++ a.flushes.map (·.2) ++ (a.migrating.map (·.2)).toList
    let d := (d.setAlloc slot none).dropCells now a.p0 a.pages
    let d := { d with mem := d.mem.dropPages a.p0 a.pages, arb := { d.arb with
      reqs := d.arb.reqs.filter fun r => r.job.what != Xfer.home slot && r.job.what != Xfer.zero slot } }
    let d := if a.frames = 0 then d else d.refit now (flagHalf a.flags)
    let d := { d with hub := { d.hub with
      scanQ := d.hub.scanQ.mapV [] fun l => l.filter fun s => !scans.contains s
      scanRun := d.hub.scanRun.mapV none fun x => x.filter fun s => !scans.contains s } }
    forEach d ids fun d id => d.answer now id stStaleGen []

/-! ### Commands -/

/-- ALLOC (R234). -/
def execAlloc (s : State) : Host.Outcome State Fault Refusal :=
  hostCmd 0x10 s fun now p d =>
    let pages := (p.w 2).fld 21 0
    let flags := p.w 3
    let h := halfNum (flagHalf flags)
    let home := d.homeOf flags pages
    let run := freeRun d.allocs pages
    d.checked now p.id
      [(p.bad 2 || rsvBits (p.w 2) 63 22 || flagsBad flags pages true, stBadParam),
       (d.notServed 0x10 || home.isNone || run.isNone || decide (65536 ≤ d.allocs.length)
          || (flagPin flags && decide (mereFrames < d.framesUsed h + pages)), stRefusedState)]
      fun d =>
        let (slot, a, d) := d.makeAlloc now flags pages (home.getD false) none false 0 (run.getD 0)
        d.answer now p.id stOk [handleWord slot a.gen, BitVec.ofNat 64 a.base, mkWord [(b2n a.peat, 0), (h, 2)]]

/-- The zeroing of an allocation's pages asks the background scrub ports, with the horizon of R36 (R234, R278). -/
def Device.askZero (d : Device) (now slot : Nat) (a : Alloc) : Device :=
  if a.peat then d
  else forEach d (rangeFrom a.p0 a.pages) fun d pg =>
    d.requests now (dramFirst (halfNum (flagHalf a.flags)) (Config.homePage pg) portScrub 512) (lstOf now (now + 10000000))
      ⟨none, none, .zero slot⟩

/-- FREE (R234). -/
def execFree (s : State) : Host.Outcome State Fault Refusal :=
  hostCmd 0x11 s fun now p d =>
    let slot := handleSlot (p.w 2)
    match d.byHandle (p.w 2) with
    | none => d.answer now p.id (if p.bad 1 || handleBad (p.w 2) || rsvBits (p.w 2) 63 32 then stBadParam else stStaleGen) []
    | some a =>
      d.checked now p.id
        [(p.bad 1 || handleBad (p.w 2) || rsvBits (p.w 2) 63 32, stBadParam),
         (d.notServed 0x11 || d.isAttached slot || a.plan.isSome || a.migrating.isSome || d.isSource slot, stRefusedState)]
        fun d =>
          if flagScrub a.flags then (d.modAlloc slot fun a => { a with freeing := some p.id }).askZero now slot a
          else (d.endAlloc now slot).answer now p.id stOk [BitVec.ofNat 64 a.pages]

/-- FREE_ZERO_DONE: the pages of a FREE with SCRUB_ON_FREE are zeroed, every transfer of the zeroing granted (R234). -/
def execFreeZeroDone (slot : BitVec 16) (s : State) : Host.Outcome State Fault Refusal :=
  s.act fun now d =>
    match d.alloc? slot.toNat with
    | none => d
    | some a => match a.freeing with
      | none => d
      | some id => if d.asking (.zero slot.toNat) then d else (d.endAlloc now slot.toNat).answer now id stOk [BitVec.ofNat 64 a.pages]

/-- Staging pages in use in a half. -/
def Device.staged (d : Device) (h : Nat) : Nat :=
  (d.mem.staged.filter fun e => e.2 && (d.ownerOf e.1).any fun o => halfNum (flagHalf o.2.flags) == h).length

/-- The part of a PUT's range that lies in a page covers the page whole. -/
def covers (a : Alloc) (off n page : Nat) : Bool :=
  decide (off ≤ (page - a.p0) * pageBytes) && decide ((page - a.p0 + 1) * pageBytes ≤ off + n)

/-- Steward traffic for lines of a page (R235, R278): the mere slices, and at the memory ports the lines that the home gives or
takes. -/
def Device.stewardAsks (d : Device) (now h page : Nat) (ls dram : List Nat) : Device :=
  d.requests now ((sliceHops h 10 ls).map (fun x => [x]) ++ dramLines h (d.physOf page) portSteward dram) (stewardLst now)
    ⟨none, none, .steward⟩

/-- A PUT's lines of a page: those covered in part and not in the mere are filled first, all are placed in the mere, and without
WRITE_BACK they go to DRAM as they land (R172, R174, R277). A PLAIT page that the fabric may not write is encoded at once. -/
def Device.putLines (d : Device) (now : Nat) (a : Alloc) (page lo hi : Nat) : Device :=
  let h := flagHalf a.flags
  let ls := rangeFrom (lo / 128) ((hi - 1) / 128 - lo / 128 + 1)
  let part := ls.filter fun l => decide (128 * l < lo || hi < 128 * (l + 1)) && !d.resident h (page * 512 + l)
  let lands := !flagWriteBack a.flags && !flagPlait a.flags
  let d := (d.stewardAsks now (halfNum h) page ls part).useLines now h page ls
  if a.peat then d.requests now (dramLines (halfNum h) (Config.homePage (2 ^ 22 + page)) portSteward ls) (stewardLst now)
    ⟨none, none, .steward⟩
  else if lands then d.requests now (dramLines (halfNum h) (d.physOf page) portSteward ls) (stewardLst now) ⟨none, none, .steward⟩
  else if flagWriteBack a.flags then d else d.encodeHome now a page

/-- The bytes of a page, from and up to, that `n` bytes from byte `b` of an allocation hold. -/
def Alloc.part (a : Alloc) (b n page : Nat) : Nat × Nat :=
  let at_ := (page - a.p0) * pageBytes
  (b - at_, min pageBytes (b + n - at_))

/-- What makes a page of a PUT unreadable that must be staged and is not covered whole (R176). -/
def Device.stageBad (d : Device) (a : Alloc) (off n : Nat) (pages : List Nat) : Option Unread :=
  (pages.filter fun pg => !covers a off n pg).findSome? fun pg => d.unreadPage a pg 0 pageBytes

/-- PUT (R173, R176, R234). -/
def execPut (s : State) : Host.Outcome State Fault Refusal :=
  hostCmd 0x12 s fun now p d =>
    let off := (p.w 3).toNat
    let n := p.len - 5
    let own := p.badFlags || decide (p.len < 6) || handleBad (p.w 2) || rsvBits (p.w 2) 63 32 || off % 8 != 0
    match d.byHandle (p.w 2) with
    | none => d.answer now p.id (if own then stBadParam else stStaleGen) []
    | some a =>
      let h := halfNum (flagHalf a.flags)
      let pages := a.pagesOf off (8 * n)
      let fresh := if a.peat then pages.filter fun pg => !d.mem.staged.get false pg else []
      d.checked now p.id
        [(own || decide (a.bytes < off + 8 * n), stBadParam),
         (d.notServed 0x12 || a.migrating.isSome || d.isSource (handleSlot (p.w 2))
            || decide (stagingPages < d.staged h + fresh.length), stRefusedState)]
        fun d =>
          match d.stageBad a off (8 * n) fresh with
          | some u => (d.logUnread now none none u).answer now p.id stFaulted [BitVec.ofNat 64 u.off]
          | none =>
            let bs := wordsBytes ((p.words.drop 4).take n)
            let d := d.writeBytes a off bs
            let d := if !a.peat then d else { d with mem := { d.mem with
              staged := setAll false d.mem.staged fresh true
              dirtyPages := setAll false d.mem.dirtyPages pages true
              rewritten := setAll false d.mem.rewritten pages true } }
            let d := forEach d pages fun d pg => let x := a.part off (8 * n) pg; d.putLines now a pg x.1 x.2
            d.answer now p.id stOk [BitVec.ofNat 64 n]

/-- A GET's lines of a page are read through the mere: those absent from their home, which a page never written does not
touch (R164, R168, R172). -/
def Device.getLines (d : Device) (now : Nat) (a : Alloc) (page lo hi : Nat) : Device :=
  let h := flagHalf a.flags
  let ls := rangeFrom (lo / 128) ((hi - 1) / 128 - lo / 128 + 1)
  let absent := ls.filter fun l => !d.resident h (page * 512 + l)
  let fresh := d.mem.form.get .fresh page == .fresh && !d.mem.staged.get false page
  let home := if fresh || (a.peat && !d.mem.staged.get false page) then [] else absent
  (d.stewardAsks now (halfNum h) page ls home).useLines now h page ls

/-- GET (R234): it waits for a line whose fill is under way (R102); an unreadable line or block gives FAULTED with its offset. -/
def execGet (s : State) : Host.Outcome State Fault Refusal :=
  hostCmd 0x13 s fun now p d =>
    let off := (p.w 3).toNat
    let n := (p.w 4).fld 19 0
    let own := p.bad 3 || handleBad (p.w 2) || rsvBits (p.w 2) 63 32 || off % 8 != 0 || n == 0 || decide (1048571 < n)
      || rsvBits (p.w 4) 63 20
    match d.byHandle (p.w 2) with
    | none => d.answer now p.id (if own then stBadParam else stStaleGen) []
    | some a =>
      d.checked now p.id
        [(own || decide (a.bytes < off + 8 * n), stBadParam), (d.notServed 0x13, stRefusedState)]
        fun d =>
          let pages := a.pagesOf off (8 * n)
          let waits := pages.any fun pg =>
            let x := a.part off (8 * n) pg
            d.filling pg (rangeFrom (x.1 / 128) ((x.2 - 1) / 128 - x.1 / 128 + 1))
          if waits then { d with port := { d.port with interp := some p } }
          else match d.firstBad a off (8 * n) with
            | some u => (d.logUnread now none none u).answer now p.id stFaulted [BitVec.ofNat 64 u.off]
            | none =>
              let d := forEach d pages fun d pg => let x := a.part off (8 * n) pg; d.getLines now a pg x.1 x.2
              d.answer now p.id stOk (bytesWords n (d.readBytes a off (8 * n)))

/-! ### Storing pages in peat (R176, R182, R186) -/

/-- The lowest run of `n` logical pages of the allocation area that no other page's image takes, if there is one. -/
def Peat.cellRun (p : Peat) (page n : Nat) : Option Nat :=
  let taken := p.cells.filterMap fun e => if e.1 = page then none else e.2
  let free (f : Nat) : Bool := decide (f + n ≤ p.hostPages + p.allocPages)
    && taken.all fun c => decide (f + n ≤ c.1) || decide (c.1 + c.2 ≤ f)
  ((p.hostPages :: taken.map fun c => c.1 + c.2).filter free).min?

/-- A peat page of the allocation area is sealed sector by sector under the tenant storage key (R437). -/
def Device.sealPage (d : Device) (lpn : Nat) (data : List Byte) : List Byte :=
  match d.ten.key with
  | none => data
  | some key => (List.range pageSectors).flatMap fun s =>
      xtsEncrypt (key.flatMap (·.bytes)) (Config.tweakKey key) (16 * lpn + s) (chunk data (s * sectorData) sectorData)

/-- The stored image of a page is programmed through the journal; its earlier run of logical pages is released when the image takes
another. Where no run of the allocation area is free it stays as it is, to be stored later (log entry 109). -/
def Device.storePage (d : Device) (now : Nat) (a : Alloc) (page : Nat) (img : Option (List Byte)) : Device :=
  let n := imagePages img
  let bytes := img.getD (d.readBytes a ((page - a.p0) * pageBytes) pageBytes)
  let old := d.peat.cells.get none page
  match if (old.map (·.2)) = some n then old.map (·.1) else d.peat.cellRun page n with
  | none => d
  | some f =>
    let d := if old = some (f, n) then d else d.dropCells now page 1
    let d := d.modPeat fun p => { p with cells := p.cells.set none page (some (f, n)) }
    forEach d (List.range n) fun d i =>
      d.modPeat fun p => p.queueProgram now (f + i) (d.sealPage (f + i) (chunk bytes (i * peatPageBytes) peatPageBytes))

/-- The logical pages of allocation pages' images. -/
def Peat.cellLpns (p : Peat) (pages : List Nat) : List Nat :=
  pages.flatMap fun pg => match p.cells.get none pg with
    | some (f, n) => rangeFrom f n
    | none => []

/-- Every program of these logical pages is done. -/
def Peat.stored (p : Peat) (lpns : List Nat) : Bool := lpns.all fun l => !p.programming l

/-- A journal record of one of these logical pages is not committed. -/
def Peat.uncommitted (p : Peat) (lpns : List Nat) : Bool :=
  p.tail.any fun r => lpns.contains ((wordAt r.2 1).fld 31 0)

/-- Pages of an allocation whose bitmap bit is set (R175). -/
def Device.dirtyOf (d : Device) (a : Alloc) : List Nat :=
  (d.mem.dirtyPages.filter fun e => e.2 && decide (a.p0 ≤ e.1) && decide (e.1 < a.p0 + a.pages)).map (·.1)

/-- A page is at its home: its bit clears, its lines are clean and its staging page is released; a peat page written whole is
mended (R175, R176). A PLAIT page in DRAM is encoded. -/
def Device.pageHome (d : Device) (now : Nat) (a : Alloc) (page : Nat) : Device :=
  let d := if a.peat then d.setForm page (formOf (d.pageImage a page)) else if flagPlait a.flags then d.encodeHome now a page else d
  let m := d.mem
  { d with mem := { m with
    dirtyPages := m.dirtyPages.set false page false
    staged := m.staged.set false page false
    poison := if a.peat then m.poison.set false page false else m.poison
    dirty := m.dirty.clear (page * 512) ((page + 1) * 512) } }

/-- Steward traffic of a FLUSH or MIGRATE: the pages are read from or written to DRAM whole, or a raw page's dirty lines (R235). -/
def Device.homeAsks (d : Device) (now slot : Nat) (a : Alloc) (dirtyOnly : Bool) (pages : List Nat) : Device :=
  let h := halfNum (flagHalf a.flags)
  forEach d pages fun d pg =>
    let ls := if dirtyOnly && !flagPlait a.flags then (List.range 512).filter fun l => d.mem.dirty.get false (pg * 512 + l)
      else List.range 512
    d.requests now (dramLines h (d.physOf pg) portSteward ls) (stewardLst now) ⟨none, none, .home slot⟩

/-- FLUSH (R174–R176, R234): the pages whose bits are set at admission go home; staged pages are encoded and programmed. -/
def execFlush (s : State) : Host.Outcome State Fault Refusal :=
  hostCmd 0x14 s fun now p d =>
    let own := p.bad 1 || handleBad (p.w 2) || rsvBits (p.w 2) 63 32
    match d.byHandle (p.w 2) with
    | none => d.answer now p.id (if own then stBadParam else stStaleGen) []
    | some a =>
      d.checked now p.id [(own, stBadParam), (d.notServed 0x14 || a.migrating.isSome, stRefusedState)]
        fun d =>
          let pages := d.dirtyOf a
          if pages.isEmpty then d.answer now p.id stOk [0]
          else
            let slot := handleSlot (p.w 2)
            let d := d.homeAsks now slot a (!a.peat) pages
            let d := if a.peat then forEach d pages fun d pg => d.storePage now a pg (d.pageImage a pg) else d
            let d := { d with mem := { d.mem with rewritten := setAll false d.mem.rewritten pages false } }
            d.modAlloc slot fun a => { a with flushes := a.flushes ++ [(pages, p.id)] }

/-- Pages that a FLUSH or MIGRATE could not store for want of a free run are stored now. -/
def Device.storeRest (d : Device) (now : Nat) (a : Alloc) (pages : List Nat) : Device :=
  forEach d (pages.filter fun pg => (d.peat.cells.get none pg).isNone) fun d pg => d.storePage now a pg (d.pageImage a pg)

/-- Every page has a stored image, its programs are done, and the transfers of the slot's pages are granted. -/
def Device.storedAll (d : Device) (slot : Nat) (pages : List Nat) : Bool :=
  pages.all (fun pg => (d.peat.cells.get none pg).isSome) && d.peat.stored (d.peat.cellLpns pages) && !d.asking (.home slot)

/-- FLUSH_DONE: the earliest FLUSH of an allocation has its pages home; for a peat home once their programs are done
and journalled (R234, R303). A page written again since, or taken down by a later FLUSH too, keeps its bit (R175). -/
def execFlushDone (slot : BitVec 16) (s : State) : Host.Outcome State Fault Refusal :=
  s.act fun now d =>
    match d.alloc? slot.toNat with
    | none => d
    | some a => match a.flushes with
      | [] => d
      | (pages, id) :: rest =>
        let d := if a.peat then d.storeRest now a pages else d
        let kept := if a.peat then pages else []
        if !d.storedAll slot.toNat kept then d
        else if d.peat.uncommitted (d.peat.cellLpns kept) then d.modPeat (·.askCommit now)
        else
          let home := pages.filter fun pg => !d.mem.rewritten.get false pg && !rest.any fun f => f.1.contains pg
          let d := (forEach d home fun d pg => d.pageHome now a pg).modAlloc slot.toNat fun a => { a with flushes := rest }
          d.answer now id stOk [BitVec.ofNat 64 pages.length]

/-- Pages of an allocation that hold anything: a fresh page has no image (R168, R183). -/
def Device.writtenPages (d : Device) (a : Alloc) : List Nat :=
  (rangeFrom a.p0 a.pages).filter fun pg => d.mem.form.get .fresh pg != .fresh || d.mem.staged.get false pg

/-- Pages of a MIGRATE whose image is in error are poisoned: the encoder cannot read them (R189). -/
def Device.loseBad (d : Device) (now : Nat) (a : Alloc) (pages : List Nat) : Device :=
  forEach d pages fun d pg => match d.unreadPage a pg 0 pageBytes with
    | some (.plait o f b) =>
      ({ d with mem := { d.mem with poison := d.mem.poison.set false pg true } } : Device).logUnread now none none (.plait o f b)
    | _ => d

/-- Commands admitted and not answered. -/
def Device.openIds (d : Device) : List CmdId :=
  d.port.tags.filterMap fun e => if e.2.busy then some ⟨0, e.1 % 4096, e.2.gen, e.1 / 4096, 0, 0⟩ else none

/-- MIGRATE (R182, R234). -/
def execMigrate (s : State) : Host.Outcome State Fault Refusal :=
  hostCmd 0x15 s fun now p d =>
    let to_ := (p.w 3).fld 1 0
    let own := p.bad 2 || handleBad (p.w 2) || rsvBits (p.w 2) 63 32 || rsvBits (p.w 3) 63 2 || decide (1 < to_)
    match d.byHandle (p.w 2) with
    | none => d.answer now p.id (if own then stBadParam else stStaleGen) []
    | some a =>
      let h := halfNum (flagHalf a.flags)
      let same := (to_ == 1) == a.peat
      let room := if to_ = 1 then d.peatRoom a.pages && d.dramRoom h (a.pages * 640) else d.dramRoom h (a.pages * pageBytes)
      d.checked now p.id
        [(own || !flagReadOnly a.flags, stBadParam),
         (d.notServed 0x15 || a.migrating.isSome || (!same && !room), stRefusedState)]
        fun d =>
          if same then d.answer now p.id stOk [0]
          else
            let slot := handleSlot (p.w 2)
            let pages := d.writtenPages a
            let d := (d.homeAsks now slot a false pages).loseBad now a pages
            let d := if to_ = 1 then forEach d pages fun d pg => d.storePage now a pg (d.pageImage a pg) else d
            d.modAlloc slot fun a => { a with migrating := some (to_ == 1, p.id) }

/-- MIGRATE_DONE: every page is at the new home, and the records of the change are committed; the home changes (R182, R303). -/
def execMigrateDone (slot : BitVec 16) (s : State) : Host.Outcome State Fault Refusal :=
  s.act fun now d =>
    match d.alloc? slot.toNat with
    | none => d
    | some a => match a.migrating with
      | none => d
      | some (true, id) =>
        let pages := d.writtenPages a
        let d := d.storeRest now a pages
        if !d.storedAll slot.toNat pages then d
        else if d.peat.uncommitted (d.peat.cellLpns pages) then d.modPeat (·.askCommit now)
        else
          let held := d.openIds
          let d := forEach d pages fun d pg => d.setForm pg (formOf (d.pageImage a pg))
          let d := d.modAlloc slot.toNat fun a => { a with peat := true, migrating := none, held := held }
          d.answer now id stOk [BitVec.ofNat 64 a.pages]
      | some (false, id) =>
        if d.asking (.home slot.toNat) then d
        else
          let d := forEach d (d.dirtyOf a) fun d pg => d.pageHome now a pg
          let d := d.dropCells now a.p0 a.pages
          let d := d.modAlloc slot.toNat fun a => { a with peat := false, migrating := none, held := [] }
          d.peatWait now ⟨id, [], 0, 0, [BitVec.ofNat 64 a.pages], none, false⟩

end Sys2Proof.Machine
end

