-- ==== Sys2Proof/Machine/CamSlots.lean ====
section
/-! DEFINITION. CSI-2 ports, ISP pipes and their context slots (R324, R325, R329, R332, R333). -/

namespace Sys2Proof.Machine

/-! ### Ports -/

def Device.csi (d : Device) (t : Nat) : CsiSt := d.cam.csi.get CsiSt.init t
def Device.modCsi (d : Device) (t : Nat) (f : CsiSt → CsiSt) : Device :=
  { d with cam := { d.cam with csi := d.cam.csi.modify CsiSt.init t f } }
def Device.pipe (d : Device) (i : Nat) : Pipe := d.cam.pipes.get Pipe.init i
def Device.modPipe (d : Device) (i : Nat) (f : Pipe → Pipe) : Device :=
  { d with cam := { d.cam with pipes := d.cam.pipes.modify Pipe.init i f } }

/-- Fields of a port block (R324). -/
def portMask (w3 : Word) : Nat := w3.fld 47 32
/-- LANES, CONT_CLOCK and RATE. -/
def portLine (w3 : Word) : Nat := w3.fld 16 1
def linkTimeout (w4 : Word) : Nat := w4.fld 13 0

/-- Lowest virtual channel of a mask. -/
def lowestVc (mask : Nat) : Nat := ((List.range 16).find? fun v => bitOf mask v).getD 0

def PortSlot.takes (x : PortSlot) (vc : Nat) : Bool := bitOf (portMask x.w3) vc
/-- An enabled slot of the port takes the virtual channel. -/
def CsiSt.takes (x : CsiSt) (vc : Nat) : Bool := x.slots.any (·.takes vc)

/-- Port and virtual channel of a table's watch 0 or 1; port 15 is none (R362). -/
def WakeTable.watchPort (t : WakeTable) (w : Nat) : Nat := (wordAt t.words 2).fld (8 * w + 3) (8 * w)
def WakeTable.watchVc (t : WakeTable) (w : Nat) : Nat := (wordAt t.words 2).fld (8 * w + 7) (8 * w + 4)

/-- Tier 0 watches a port (R359, R362). -/
def Device.watched (d : Device) (port : Nat) : Bool := d.cas.table.any fun t => t.watchPort 0 == port || t.watchPort 1 == port

/-- The watches of a port whose link comes up: their first frame is not scored (R359). -/
def Device.restartWatch (d : Device) (port : Nat) : Device :=
  forEach d [0, 1] fun d w =>
    if d.cas.table.any fun t => t.watchPort w == port then
      { d with cas := { d.cas with watches := d.cas.watches.modify Watch.init w fun x => { x with height := 0 } } }
    else d

/-- The port's receiver is powered: in RUN and HUSH, and in LISTEN where Tier 0 watches it (R345, R359). -/
def Device.csiPowered (d : Device) (port : Nat) : Bool :=
  d.hubServes || (d.ready && d.pwr.state == .listen && !d.therm.tripped && d.watched port)

/-- A LINK event (R213). -/
def Device.raiseLink (d : Device) (now port : Nat) (up : Bool) : Device :=
  d.raise now 6 0x0052 (mkWord [(port, 0), (b2n up, 8)]) 0

/-- A packet arrives at an enabled port; one with a valid header brings a link up that was down (R325). -/
def Device.csiPacket (d : Device) (now port : Nat) (valid : Bool) : Device :=
  let was := (d.csi port).link
  let d := d.modCsi port fun x => { x with lastAny := now, lastPacket := if valid then now else x.lastPacket, link := x.link || valid }
  if valid && !was then (d.raiseLink now port true).restartWatch port else d

/-! ### Slots (R324, R329) -/

/-- The source of a pipe slot. -/
def PipeSlot.from_ (x : PipeSlot) (port vc : Nat) : Bool := PipeBlock.port x.block == port && PipeBlock.vc x.block == vc

/-- The lowest of four slot numbers that is not in use (log entry 69). -/
def freeNum (used : List Nat) : Nat := ((List.range 4).find? fun n => !used.contains n).getD 0

/-- A port's slots with a block taken or released; a context keeps the slot that it holds. -/
def setPortSlot (slots : List PortSlot) (ctx : Nat) (block : List Word) : List PortSlot :=
  let rest := slots.filter (·.ctx != ctx)
  let num := ((slots.find? (·.ctx == ctx)).map (·.num)).getD (freeNum (slots.map (·.num)))
  if (wordAt block 0).getLsbD 0 then rest ++ [⟨num, ctx, wordAt block 0, wordAt block 1⟩] else rest

/-- A pipe with a block taken or released: a block that takes effect starts its count of frames (R342). -/
def Pipe.setSlot (p : Pipe) (ctx : Nat) (block : List Word) : Pipe :=
  if !PipeBlock.enable block then { p with slots := p.slots.filter (·.ctx != ctx) }
  else if p.slots.any (·.ctx == ctx) then
    { p with slots := p.slots.map fun x => if x.ctx = ctx then { x with block := block, frames := 0 } else x }
  else { p with slots := p.slots ++ [⟨freeNum (p.slots.map (·.num)), ctx, block, 0, 0, 0⟩] }

/-! ### Truncation (R328) -/

/-- The pipe's frame has all its lines. -/
def PipeFrame.ended (f : PipeFrame) : Bool := f.truncated || decide (PipeBlock.height f.slot.block ≤ f.lines.length)

def PipeFrame.of (f : PipeFrame) (port vc : Nat) : Bool := f.port == port && f.vc == vc

/-- Pipes that take lines of a channel's frame. -/
def Device.taking (d : Device) (port vc : Nat) : List Nat :=
  (List.range 4).filter fun i => (d.pipe i).cur.any fun f => f.of port vc && !f.ended

def Device.modFrame (d : Device) (i : Nat) (f : PipeFrame → PipeFrame) : Device :=
  d.modPipe i fun p => { p with cur := p.cur.map f }

/-- Buffer that an output writes for a frame. -/
def OutDesc.index (o : OutDesc) (f : Nat) : Nat := if o.buffers = 0 then 0 else f % o.buffers

/-- What a hub unit writes to an allocation goes to the home mere: it asks for the bridge port, then the slices (R39, R342). -/
def Device.hubAsk (d : Device) (now : Nat) (a : Alloc) (off n within : Nat) (x : Xfer) : Device :=
  forEach d (pageLines (a.base + off) n) fun d p =>
    d.requests now ((sliceHops (halfNum (flagHalf a.flags)) 1 p.2).map fun s => [hop .bridge 0 0 (cdiv s.units 2), s])
      (lstOf now (now + within)) ⟨none, none, x⟩

/-- Where a frame's outputs and its statistics record go: allocation, offset, bytes. -/
def Device.outputPlaces (d : Device) (f : PipeFrame) : List (Alloc × Nat × Nat) :=
  let b := f.slot.block
  ((PipeBlock.outputs b).filterMap fun o => (d.byHandle o.2.handle).map fun a =>
    let n := o.2.size (PipeBlock.mosaic b)
    (a, o.2.offset + o.2.index f.slot.frames * n, n))
  ++ ((if PipeBlock.statsHandle b = 0 then none else d.byHandle (PipeBlock.statsHandle b)).map fun a =>
    (a, PipeBlock.statsOffset b + f.slot.frames % PipeBlock.statsBuffers b * 8192, 8192)).toList

/-- A pipe whose frame has all its lines asks for the transfers of its outputs and record, due 20 µs later (R342). -/
def Device.askOutputs (d : Device) (now i : Nat) : Device :=
  match (d.pipe i).cur with
  | none => d
  | some f => if f.ended then forEach d (d.outputPlaces f) fun d x => d.hubAsk now x.1 x.2.1 x.2.2 20000 (.pipe i) else d

/-- Frames end at once in some pipes: their missing lines are supplied as zeros, and one FRAME_TRUNCATED names the frame (R328). -/
def Device.endFrames (d : Device) (now port vc : Nat) (is : List Nat) (overrun : Bool) : Device :=
  let number := (((is.head?).bind fun i => (d.pipe i).cur).map (·.frame.number)).getD 0
  let e := forEach d is fun d i =>
    (d.modFrame i fun f => { f with truncated := true, overrun := f.overrun || overrun }).askOutputs now i
  if is.isEmpty then e else e.raise now 6 0x0053 (mkWord [(port, 0), (vc, 4)]) (BitVec.ofNat 64 number)

/-- The frame of a channel ends at once in every pipe that takes it. -/
def Device.truncate (d : Device) (now port vc : Nat) (overrun : Bool) : Device :=
  (d.endFrames now port vc (d.taking port vc) overrun).modCsi port fun x => { x with frames := x.frames.set none vc none }

/-- Every frame in progress on a port ends. -/
def Device.truncatePort (d : Device) (now port : Nat) : Device :=
  forEach d (List.range 16) fun d v => d.truncate now port v false

/-! ### Blocks that take effect -/

/-- The block of a wait takes effect. A port whose last slot is released is down, without an event: frames in progress on it
are truncated (R325). -/
def Device.applyCam (d : Device) (now : Nat) (w : CamWait) : Device :=
  let d := { d with cam := { d.cam with waits := d.cam.waits.filter (· != w) } }
  if w.target < 8 then
    let slots := setPortSlot (d.csi w.target).slots w.ctx w.block
    let d := if slots.isEmpty then d.truncatePort now w.target else d
    d.modCsi w.target fun x => { x with slots := slots, link := x.link && !slots.isEmpty }
  else d.modPipe (w.target - 8) fun p => p.setSlot w.ctx w.block

/-- Blocks of other contexts that wait for a target's boundary. -/
def Device.camWaiting (d : Device) (target ctx : Nat) : List CamWait :=
  d.cam.waits.filter fun w => w.target == target && w.ctx != ctx

/-- The answer of a CAMERA_SET whose block takes effect: the frame number, or all ones (R255, R332). -/
def Device.answerCam (d : Device) (now : Nat) (w : CamWait) (word : Word) : Device :=
  match w.id with
  | some id => d.answer now id stOk [word]
  | none => d

/-- The channel whose Frame Start a wait needs: a port's lowest channel of the block's mask; for a release that names none any that its
slot takes, or of a context without a slot any at all; a pipe's source. -/
def Device.camBoundary (d : Device) (w : CamWait) (port vc : Nat) : Bool :=
  if w.target < 8 then
    w.target == port &&
      (let mask := portMask (wordAt w.block 0)
       if mask ≠ 0 then lowestVc mask == vc else (d.csi port).slots.all fun x => x.ctx != w.ctx || x.takes vc)
  else if w.block.isEmpty then (d.pipe (w.target - 8)).slots.any fun x => x.ctx == w.ctx && x.from_ port vc
  else PipeBlock.port w.block == port && PipeBlock.vc w.block == vc

/-- The port that a wait's boundary comes from. -/
def Device.camSource (d : Device) (w : CamWait) : Option Nat :=
  if w.target < 8 then some w.target
  else if w.block.isEmpty then
    ((d.pipe (w.target - 8)).slots.find? fun x => x.ctx == w.ctx).map fun x => PipeBlock.port x.block
  else some (PipeBlock.port w.block)

/-- Waits on a port without an active link end at once (R332). -/
def Device.resolveCam (d : Device) (now : Nat) : Device :=
  let dead := d.cam.waits.filter fun w => match d.camSource w with | some t => !(d.csi t).link | none => true
  forEach d dead fun d w => (d.applyCam now w).answerCam now w (BitVec.allOnes 64)

end Sys2Proof.Machine
end

