-- ==== Sys2Proof/Machine/Restore.lean ====
section
/-! DEFINITION. What a compute reset, a return to RUN and a scrub leave in cores, knots, streams and the pre-roll ring
(R51, R70, R131, R355, R373, R425), and the unbinding of a weave (R239). -/

namespace Sys2Proof.Machine

/-- A core after a compute reset (R51): its registers, accumulators and counters at their reset values, its pool kept,
its dispatch generation advanced. -/
def Core.afterReset (k : Core) : Core := { Core.init with pool := k.pool, thresh := k.thresh, gen := (k.gen + 1) % 256 }

def Knot.advance (k : Knot) : Knot := ⟨0, (k.gen + 1) % 2 ^ 16⟩
/-- Count 0, generation advanced, arm withdrawn (R70). -/
def GKnot.advance (k : GKnot) : GKnot := { k with count := 0, gen := (k.gen + 1) % 2 ^ 16, arm := none }

/-- Spare global knot slots (R403). -/
def knotSpareSlots : Nat := 512

/-- A failed global knot slot is replaced behind the same index; with no spare left it is withdrawn (R405). -/
def Fabric.replaceKnot (x : Fabric) (i : Nat) : Fabric :=
  let k := x.gknots.get {} i
  if x.knotSpares < knotSpareSlots then
    { x with gknots := x.gknots.set {} i { k with failed := false, spare := true }, knotSpares := x.knotSpares + 1 }
  else { x with gknots := x.gknots.set {} i { k with failed := false, withdrawn := true } }

/-- The 64 local knots of a core advance. -/
def Device.advanceLocal (d : Device) (c : Nat) : Device :=
  forEach d (List.range 64) fun d i => d.setLknot c i (d.lknot c i).advance

/-- The knots of a partition advance: local ones of its cores, global ones it owns (R70). -/
def Device.advanceKnots (d : Device) (p : Nat) : Device :=
  let d := forEach d (d.part p).cores Device.advanceLocal
  ({ d with fab := { d.fab with gknots := d.fab.gknots.map fun e => if e.2.owner = some p then (e.1, e.2.advance) else e } } : Device).wakeCores

/-- RESET is set on every valid stream of a partition (R131). -/
def Device.resetStreams (d : Device) (p : Nat) : Device :=
  let ws := d.weaves.filterMap fun e => if e.2.bound = some p then some e.1 else none
  { d with ten := { d.ten with streams := d.ten.streams.map fun e =>
      (e.1, e.2.map fun x => if ws.contains x.weave then { x with reset := true } else x) } }

/-- A section's bytes and thresholds are placed in its core (R237, R322). -/
def Core.place (k : Core) (x : Section_) : Core :=
  { k with
    pool := k.pool.setList 0 x.base x.bytes
    thresh := (List.range 16).foldl (fun m i => m.set 0 i (BitVec.ofNat 32 (leAt x.bytes (x.thresh - x.base + 4 * i) 4))) k.thresh }

/-- The sections of a weave are placed. -/
def Device.placeSections (d : Device) (w : Weave) : Device :=
  forEach d w.sections fun d x => d.modCore x.core fun k => k.place x

/-! ### Unbinding (R239) -/

/-- A weave is unbound: its plan allocations end, attachments are detached, its global knots are owned by none. -/
def Device.unbind (d : Device) (now slot : Nat) : Device :=
  match d.weave? slot with
  | none => d
  | some w =>
    match w.bound with
    | none => d
    | some p =>
      let d := forEach d w.planSlots fun d s => d.endAlloc now s
      let d := (forEach d w.knotIdx fun d i => d.setGknot i { d.gknot i with owner := none, arm := none }).wakeCores
      let d := d.modPart p fun q => { q with weave := none }
      d.modWeave slot fun w => { w with bound := none, planSlots := [], attSlots := [], knotIdx := [] }

/-- A partition is removed; its counters stand (R430), and a compute reset of it that runs goes on. -/
def Part.removed (q : Part) : Part :=
  { q with defined := false, bundles := if q.reset.isSome then q.bundles else 0, pg := 0, compat := false, oos := false
           weave := none, items := [], running := none }

/-- A partition when its tenant ends: the escalation count stands (R400). -/
def Part.ended (q : Part) : Part :=
  { Part.init with resetTimes := q.resetTimes, reset := q.reset, bundles := if q.reset.isSome then q.bundles else 0 }

/-! ### The pre-roll ring (R354, R355) -/

def ringSlots : Nat := 1024
def ringSlotBytes : Nat := 1416
def channelBytes : Nat := 88

/-- A channel block of silence: FLAGS only. -/
def silentBlock (flags : Nat) : List Byte := [0, 0, 0, BitVec.ofNat 8 flags] ++ List.replicate 84 0

/-- A ring slot: header, then 16 channel blocks. -/
def ringSlot (k active : Nat) (gap : Bool) (blocks : List (List Byte)) : List Byte :=
  leBytes 8 (k % 2 ^ 32 + active % 2 ^ 16 * 2 ^ 32 + b2n gap * 2 ^ 48) ++ blocks.flatten

def gapSlot (k : Nat) : List Byte := ringSlot k 0 true (List.replicate 16 (silentBlock 1))

def ringPut (ring : SMap Byte) (k : Nat) (bs : List Byte) : SMap Byte := ring.setList 0 (k % ringSlots * ringSlotBytes) bs

/-- The latest block before block `n` that occupies slot `i`. -/
def latestBlock (n i : Nat) : Option Nat := if i < n then some (n - 1 - (n - 1 - i) % ringSlots) else none

/-- The ring with every slot rewritten as GAP, before block `n` completes. -/
def allGap (n : Nat) : SMap Byte :=
  (List.range ringSlots).flatMap fun i => match latestBlock n i with
    | none => []
    | some k => ((gapSlot k).zipIdx.map fun (b, j) => (i * ringSlotBytes + j, b)).filter fun e => e.2 ≠ 0

/-! ### The scrub (R425, R427) -/

/-- A place that waits: camera slots of a context, on ports and pipes, are to be released at their next boundary. -/
def Device.releaseSensors (d : Device) (now ctx : Nat) : Device :=
  let ports := (List.range 8).filter fun t => (d.cam.csi.get CsiSt.init t).slots.any (·.ctx == ctx)
  let pipes := ((List.range 4).filter fun t => (d.cam.pipes.get Pipe.init t).slots.any (·.ctx == ctx)).map (8 + ·)
  let d := { d with cam := { d.cam with waits := d.cam.waits ++ (ports ++ pipes).map fun t => (⟨none, ctx, t, []⟩ : CamWait) } }
  let d := if d.aud.slots.any (·.ctx == ctx) || d.aud.waits.any (·.ctx == ctx) then
      { d with aud := { d.aud with waits := d.aud.waits ++ [(⟨none, ctx, [], now / 10000000 + 1⟩ : AudWait)] } } else d
  let holds (t : Option WakeTable) : Bool := (t.map (·.ctx)) == some ctx
  if holds (match d.cas.next with | some t => t | none => d.cas.table) then
    { d with cas := { d.cas with next := some none } } else d

/-- Open tenant contexts. -/
def Device.openContexts (d : Device) : List Nat := (d.ten.contexts.filter (·.2)).map (·.1)

/-- Every context is closed. -/
def Device.closeContexts (d : Device) (now : Nat) : Device :=
  let d := forEach d d.openContexts fun d c => d.releaseSensors now c
  { d with ten := { d.ten with contexts := [] } }

/-- A Tier 1 run ends with its weave, and no event. -/
def Device.dropTier1 (d : Device) : Device :=
  if d.cas.tier1.isSome then
    let d := forEach d [0, 1, 2, 3] fun d c => d.modCore c fun k => { k.stop with run := .halted }
    { d with cas := { d.cas with tier1 := none, waiting := none } }
  else { d with cas := { d.cas with waiting := none } }

/-- Every allocation ends, with the weaves, partitions, streams and sequences of the tenant (R166, R232). -/
def Device.endTenantObjects (d : Device) (now : Nat) : Device :=
  let d := d.dropTier1
  let d := forEach d (d.weaves.map (·.1)) fun d s => d.unbind now s
  let d := { d with parts := d.parts.map fun e => (e.1, e.2.ended) }
  let d := forEach d (d.allocs.map (·.1)) fun d s => d.endAlloc now s
  { d with ten := { d.ten with weaves := [], streams := [], seqs := [] }
           parts := d.parts.filter fun e => e.2 ≠ Part.init }

/-- A scrub keeps one write at each subchannel's background scrub port (R278); the arbiter raises the next. -/
def Device.askScrub (d : Device) (now : Nat) : Device :=
  if d.ten.state = .scrubbing then
    forEach d (List.range 12) fun d sc =>
      if d.arb.reqs.any fun r => r.site == .memPort && r.inst == sc && r.job.what == .scrub then d
      else d.request now [hop .memPort sc portScrub] (lstOf now (now + 10000000)) ⟨none, none, .scrub⟩
  else d

/-- SCRUBBING begins: the storage key is destroyed first (R425), every context closed. -/
def Device.startScrub (d : Device) (now : Nat) (id : Option CmdId) : Device :=
  let d := { d with ten := { d.ten with key := none, state := .scrubbing, scrubAt := now, scrubId := id } }
  ((d.closeContexts now).resolveCam now).askScrub now

/-- Logical pages of the peat allocation area (R305). -/
def Peat.inAllocArea (p : Peat) (l : Nat) : Bool := decide (p.hostPages ≤ l) && decide (l < p.hostPages + p.allocPages)

/-- Every page of the allocation area is released (R424, R425). -/
def Peat.releaseAllocArea (p : Peat) (now : Nat) : Peat :=
  let ls := (p.map.map (·.1)).filter p.inAllocArea
  { ls.foldl (fun p l => (p.outdate l).release now l) p with cells := [] }

/-- Global knots in the hub. -/
def globalKnots : Nat := 4096

/-- The places of R425 are overwritten with zeros. -/
def Device.scrubbed (d : Device) (now : Nat) : Device :=
  { d with
    fab := { d.fab with
      cores := []
      lknots := d.fab.lknots.mapV {} fun k => { k with count := 0 }
      gknots := ((List.range globalKnots).map fun i => (i, (d.gknot i).advance)).filter fun e => e.2 ≠ {} }
    mem := Mem.init
    peat := d.peat.releaseAllocArea now
    cas := { d.cas with table := none, next := none, frameBlock := none, gapFrame := false, scores := [], feats := [],
                        holds := [], refractory := [], watches := [] }
    cam := { d.cam with pipes := d.cam.pipes.map fun e => (e.1, { e.2 with cur := e.2.cur.map fun f => { f with lines := [] } }) }
    aud := { d.aud with ring := allGap d.aud.nextBlock, recent := [], adpcm := [] }
    hub := { d.hub with dump := d.hub.dump.filter (fun e => decide (e.1 < 1088)), traceKept := false }
    arb := { d.arb with reqs := d.arb.reqs.filter fun r => r.job.what != .scrub }
    ten := Tenant.init }

end Sys2Proof.Machine
end

