-- ==== Sys2Proof/Machine/WeaveImage.lean ====
section
/-! DEFINITION. The weave image (R309–R320): its header, core descriptors, memory plan, WCET table and content pages, and
the checks of WEAVE_LOAD over them (R117, R126, R144, R170, R180, R321, R402). -/

namespace Sys2Proof.Machine

/-! ### Header (R309) -/

structure ImgHdr where
  compat : Bool
  imageId : Nat
  kinSet : Nat
  length : Nat
  keyOff : Nat
  coresOff : Nat
  cores : Nat
  entries : Nat
  planOff : Nat
  planLen : Nat
  wcetOff : Nat
  contentOff : Nat
  contents : Nat
  sigOff : Nat
  deriving DecidableEq, Repr

def imgHdr (h : List Byte) : ImgHdr where
  compat := byteAt h 6 % 2 == 1
  imageId := leAt h 8 8
  kinSet := leAt h 16 8
  length := leAt h 24 8
  keyOff := leAt h 32 8
  coresOff := leAt h 40 8
  cores := leAt h 48 2
  entries := leAt h 50 2
  planOff := leAt h 56 8
  planLen := leAt h 64 8
  wcetOff := leAt h 72 8
  contentOff := leAt h 80 8
  contents := leAt h 88 4
  sigOff := leAt h 96 8

/-- Bytes of the header that no field names. -/
def hdrReserved (h : List Byte) : Bool :=
  byteAt h 6 < 2 && byteAt h 7 == 0 && leAt h 52 4 == 0 && leAt h 92 4 == 0 && leAt h 104 24 == 0

/-- The bytes that R310 and R311 give as zero, after the signature and after the wrapped key. -/
def ImgHdr.padsOk (x : ImgHdr) (img : List Byte) : Bool :=
  ((img.drop (x.sigOff + 96)).take 32).all (· == 0) && ((img.drop (x.keyOff + 40)).take 24).all (· == 0)

/-- The header's framing, for a source that holds `size` bytes (R309, R321). -/
def ImgHdr.ok (x : ImgHdr) (h : List Byte) (size : Nat) : Bool :=
  let fits (off n : Nat) : Bool := off % 64 == 0 && decide (off + n ≤ x.sigOff)
  leAt h 0 4 == 0x57E58840 && decide (leAt h 4 2 ≤ (Config.versions.extractLsb' 16 16).toNat) && hdrReserved h
    && x.length % 128 == 0 && decide (256 ≤ x.length) && decide (x.length ≤ size) && x.sigOff == x.length - 128
    && decide (1 ≤ x.cores) && decide (x.cores ≤ 64) && decide (1 ≤ x.entries) && decide (x.entries ≤ 1024)
    && fits x.keyOff 64 && fits x.coresOff (32 * x.cores) && fits x.planOff x.planLen && x.planLen % 8 == 0
    && fits x.wcetOff (4 * x.entries) && fits x.contentOff (32 * x.contents)

/-- The signature block verifies under the owner key over bytes 0 to SIG_OFFSET − 1 (R310). -/
def signatureOk (owner : Option (Nat × Nat)) (img : List Byte) (sigOff : Nat) : Bool :=
  let sig := img.drop sigOff
  match owner with
  | none => false
  | some key => ecdsaVerify key (img.take sigOff) (ofBe (sig.take 48)) (ofBe ((sig.drop 48).take 48))

/-- The content key (R311): none where the kin set is not enrolled or the key fails to unwrap. -/
def contentKey (kin : List (Nat × Nat)) (x : ImgHdr) (img : List Byte) : Option (List Byte) :=
  (kin.find? fun e => e.1 == x.kinSet).bind fun e => kwUnwrap (beBytes 32 e.2) ((img.drop x.keyOff).take 40)

/-! ### Core descriptors (R312) -/

/-- Core descriptor `i` with its section. -/
def imgSection (x : ImgHdr) (img : List Byte) (i : Nat) : Section_ :=
  let o := x.coresOff + 32 * i
  ⟨byteAt img o, leAt img (o + 4) 4, leAt img (o + 20) 4, leAt img (o + 24) 4,
    (img.drop (leAt img (o + 8) 8)).take (leAt img (o + 16) 4)⟩

/-- A table of `n` bytes lies in the section, 4-byte aligned. -/
def Section_.holds (s : Section_) (len at_ n : Nat) : Bool :=
  at_ % 4 == 0 && decide (s.base ≤ at_) && decide (at_ + n ≤ s.base + len)

/-- Core descriptor `i` passes R312. DEDUCED (log entry 101): the image declares no pool plan, so R117's 3 MiB limit is that each range
declared in a pool lies in it, here the section's. -/
def sectionOk (x : ImgHdr) (img : List Byte) (mask i : Nat) : Bool :=
  let o := x.coresOff + 32 * i
  let s := imgSection x img i
  let off := leAt img (o + 8) 8
  let len := leAt img (o + 16) 4
  leAt img (o + 1) 3 == 0 && leAt img (o + 28) 4 == 0 && decide (s.core < 64) && bitOf mask (bundleOf s.core)
    && s.base % 64 == 0 && len % 64 == 0 && decide (s.base + len ≤ poolBytes)
    && off % 128 == 0 && decide (off + len ≤ x.sigOff) && s.holds len s.entryTab (4 * x.entries) && s.holds len s.thresh 64

/-! ### The memory plan (R313–R317) -/

/-- `k` groups of `n` words. -/
def groups (n : Nat) : Nat → List Word → List (List Word)
  | 0, _ => []
  | k + 1, ws => ws.take n :: groups n k (ws.drop n)

/-- Item `i` of a table of 32-bit values, two to a word. -/
def half32 (ws : List Word) (i : Nat) : Nat := (wordAt ws (i / 2)).fld (32 * (i % 2) + 31) (32 * (i % 2))

structure PlanHdr where
  mask : Nat
  control : Nat
  allocs : Nat
  knots : Nat
  entries : Nat
  classes : Nat
  serving : Bool
  bindOff : Nat
  attach : Nat
  segments : Nat
  deriving DecidableEq, Repr

def planHdr (ws : List Word) : PlanHdr where
  mask := (wordAt ws 0).fld 15 0
  control := (wordAt ws 0).fld 21 16
  allocs := (wordAt ws 0).fld 40 32
  knots := (wordAt ws 0).fld 52 41
  entries := (wordAt ws 1).fld 15 0
  classes := (wordAt ws 1).fld 20 16
  serving := (wordAt ws 1).getLsbD 21
  bindOff := (wordAt ws 2).fld 21 0
  attach := (wordAt ws 2).fld 28 22
  segments := (wordAt ws 3).fld 31 0

def PlanHdr.words (h : PlanHdr) (cores : Nat) : Nat :=
  8 + h.entries * (2 + cores) + 4 * h.allocs + cdiv h.segments 2 + 4 * h.classes + (if h.serving then 8 else 0)

def PlanHdr.ok (h : PlanHdr) (ws : List Word) (x : ImgHdr) : Bool :=
  let w (i : Nat) : Word := wordAt ws i
  !rsvBits (w 0) 31 22 && !rsvBits (w 0) 63 53 && !rsvBits (w 1) 63 22 && !rsvBits (w 2) 63 29 && !rsvBits (w 3) 63 32
    && ((ws.drop 4).take 4).all (· == 0) && h.entries == x.entries && decide (h.allocs ≤ 256) && decide (h.knots ≤ 4095)
    && decide (h.classes ≤ 16) && decide (h.attach ≤ 64) && bitOf h.mask (bundleOf h.control) && h.bindOff % 8 == 0
    && decide (h.bindOff + 8 * (h.knots + h.allocs + h.attach) ≤ poolBytes) && x.planLen == 8 * h.words x.cores
    && !(x.compat && (h.classes != 0 || h.serving))

def planEntry (ws : List Word) : EntryRec where
  argOff := (wordAt ws 0).fld 21 0
  argWords := (wordAt ws 0).fld 41 22
  kind := (wordAt ws 0).fld 43 42
  peak0 := (wordAt ws 1).fld 15 0
  peak1 := (wordAt ws 1).fld 31 16
  scheds := (ws.drop 2).map fun w => (w.fld 21 0, w.fld 37 22, w.fld 43 38)

/-- The pages of a plan's map allocations homed in a half. -/
def mapPages (as : List PlanAlloc) (h : Nat) : Nat :=
  ((as.filter fun a => a.map && halfNum (flagHalf a.flags) == h).map (·.pages)).sum

def EntryRec.ok (e : EntryRec) (ws : List Word) (as : List PlanAlloc) : Bool :=
  !rsvBits (wordAt ws 0) 63 44 && !rsvBits (wordAt ws 1) 63 32 && (ws.drop 2).all (fun w => !rsvBits w 63 44)
    && decide (e.argOff + 8 * e.argWords ≤ poolBytes) && decide (e.peak0 + e.peak1 ≤ 1536)
    && decide (e.peak0 ≤ mapPages as 0) && decide (e.peak1 ≤ mapPages as 1)
    && e.scheds.all fun x => x.1 % 32 == 0 && decide (x.1 + 32 * x.2.1 ≤ poolBytes)

/-- Allocation record (R315) with its segments. -/
def planAlloc (ws segs : List Word) : PlanAlloc where
  flags := wordAt ws 0
  pages := (wordAt ws 1).fld 21 0
  map := (wordAt ws 1).getLsbD 22
  first := (wordAt ws 2).fld 31 0
  contents := (wordAt ws 2).fld 63 32
  segs := (rangeFrom ((wordAt ws 3).fld 31 0) ((wordAt ws 3).fld 63 32)).map (half32 segs)

def PlanAlloc.ok (a : PlanAlloc) (ws : List Word) (segments contents : Nat) : Bool :=
  let n := (wordAt ws 3).fld 63 32
  !rsvBits (wordAt ws 1) 63 23 && !flagsBad a.flags a.pages false && ((n != 0) == (flagWindow a.flags != 0))
    && decide ((wordAt ws 3).fld 31 0 + n ≤ segments) && decide (a.first + a.contents ≤ contents)
    && (n == 0 || (a.segs.all (1 ≤ ·) && a.segs.sum == a.pages))

def planClass (ws : List Word) : ClassRec where
  width := (wordAt ws 0).fld 1 0
  decision := (wordAt ws 0).getLsbD 2
  bundles := (wordAt ws 0).fld 31 16
  rowFirst := (wordAt ws 0).fld 43 32
  rowLast := (wordAt ws 0).fld 55 44
  stepEntry := (wordAt ws 1).fld 15 0
  decEntry := (wordAt ws 1).fld 31 16
  bMax := (wordAt ws 1).fld 44 32
  gMax := (wordAt ws 2).fld 7 0
  feats := (wordAt ws 2).fld 13 8
  stepWords := (wordAt ws 2).fld 47 32
  resWords := (wordAt ws 2).fld 63 48

/-- An entry exists and is of the kind. -/
def entryKind (es : List EntryRec) (i kind : Nat) : Bool := ((es[i]?).map (·.kind)) == some kind

def ClassRec.ok (c : ClassRec) (ws : List Word) (es : List EntryRec) (mask : Nat) : Bool :=
  !rsvBits (wordAt ws 0) 15 3 && !rsvBits (wordAt ws 0) 63 56 && !rsvBits (wordAt ws 1) 63 45 && !rsvBits (wordAt ws 2) 31 14
    && wordAt ws 3 == 0 && c.bundles != 0 && c.bundles &&& mask == c.bundles
    && decide (1024 ≤ c.rowFirst) && decide (c.rowFirst ≤ c.rowLast) && entryKind es c.stepEntry 1
    && (if c.decision then entryKind es c.decEntry 2 else c.decEntry == 0)
    && decide (1 ≤ c.bMax) && decide (c.bMax ≤ 4096) && decide (c.gMax ≤ 96) && decide (c.feats ≤ 32)

/-- Two classes share rows of a core (R126). -/
def ClassRec.meets (a b : ClassRec) : Bool :=
  a.bundles &&& b.bundles != 0 && decide (a.rowFirst ≤ b.rowLast) && decide (b.rowFirst ≤ a.rowLast)

/-- No two classes of a list share rows. -/
def classesApart : List ClassRec → Bool
  | [] => true
  | c :: cs => cs.all (fun x => !c.meets x) && classesApart cs

def planServing (ws : List Word) : ServRec where
  entry := (wordAt ws 0).fld 15 0
  layers := (wordAt ws 0).fld 23 16
  budget := (wordAt ws 0).fld 37 24
  chunk := (wordAt ws 0).fld 51 38
  kvPages := (wordAt ws 1).fld 15 0
  ctxMax := (wordAt ws 1).fld 33 16
  frames := (wordAt ws 2).fld 24 0
  kv0 := (wordAt ws 2).fld 32 25
  kv1 := (wordAt ws 2).fld 40 33
  tableBase := (wordAt ws 2).fld 62 41
  pw := (wordAt ws 3).fld 19 0
  mFix := (wordAt ws 4).toNat

/-- A KV pool (R144, R156): FRAMES × LAYERS × 256 KiB in its half, writable, raw, without CROSS_HALF. -/
def kvPoolOk (as : List PlanAlloc) (i h frames layers : Nat) : Bool :=
  match as[i]? with
  | none => false
  | some a => a.pages == frames * layers * 4 && !flagReadOnly a.flags && !flagPlait a.flags && !flagCross a.flags && halfNum (flagHalf a.flags) == h

def ServRec.ok (x : ServRec) (ws : List Word) (es : List EntryRec) (as : List PlanAlloc) : Bool :=
  !rsvBits (wordAt ws 0) 63 52 && !rsvBits (wordAt ws 1) 63 34 && !rsvBits (wordAt ws 2) 63 63 && !rsvBits (wordAt ws 3) 63 20
    && ((ws.drop 5).take 3).all (· == 0) && entryKind es x.entry 3 && decide (1 ≤ x.layers)
    && decide (1 ≤ x.budget) && decide (x.budget ≤ 8192) && decide (1 ≤ x.chunk) && decide (x.chunk ≤ x.budget)
    && decide (1 ≤ x.kvPages) && decide (256 ≤ x.ctxMax) && decide (x.ctxMax ≤ 131072) && x.ctxMax % 256 == 0
    && decide (1 ≤ x.frames) && decide (x.frames ≤ 2 ^ 24) && kvPoolOk as x.kv0 0 x.frames x.layers
    && kvPoolOk as x.kv1 1 x.frames x.layers && x.tableBase % 4 == 0 && decide (x.tableBase + 524288 ≤ poolBytes)
    && decide (1 ≤ x.pw) && decide (x.pw ≤ 589824)

/-! ### WCET table (R318) -/

def imgSrc (ws : List Word) : WSrc where
  ref := (wordAt ws 0).fld 8 0
  pagesF := (wordAt ws 1).fld 31 0
  pagesP := (wordAt ws 1).fld 63 32
  linesF := (wordAt ws 2).fld 31 0
  linesP := (wordAt ws 2).fld 63 32
  blocksF := (wordAt ws 3).fld 31 0
  blocksP := (wordAt ws 3).fld 63 32

/-- The words of entry `e`'s record: four, then four for each source. -/
def wcetWords (x : ImgHdr) (img : List Byte) (e : Nat) : List Word :=
  let rec_ := img.drop (x.wcetOff + leAt img (x.wcetOff + 4 * e) 4)
  bytesWords (4 + 4 * (leAt rec_ 24 1 % 16)) rec_

def imgWcet (x : ImgHdr) (img : List Byte) (e : Nat) : Wcet :=
  let ws := wcetWords x img e
  let n := (wordAt ws 3).fld 3 0
  ⟨(wordAt ws 0).toNat, (wordAt ws 1).toNat, (wordAt ws 2).fld 31 0, (wordAt ws 2).fld 63 32,
    (groups 4 n (ws.drop 4)).map imgSrc⟩

def wcetOk (x : ImgHdr) (img : List Byte) (es : List EntryRec) (h : PlanHdr) (e : Nat) : Bool :=
  let ws := wcetWords x img e
  let n := (wordAt ws 3).fld 3 0
  let kind := ((es[e]?).map (·.kind)).getD 0
  decide (x.wcetOff + leAt img (x.wcetOff + 4 * e) 4 + 32 + 32 * n ≤ x.sigOff) && !rsvBits (wordAt ws 3) 63 4
    && (kind == 1 || kind == 2 || wordAt ws 1 == 0)
    && (groups 4 n (ws.drop 4)).all fun s =>
      let r := (wordAt s 0).fld 8 0
      !rsvBits (wordAt s 0) 63 9 && decide (r < h.allocs || (256 ≤ r && r - 256 < h.attach))

/-! ### Content pages (R319) -/

def contentOk (x : ImgHdr) (img : List Byte) (as : List PlanAlloc) (i : Nat) : Bool :=
  let o := x.contentOff + 32 * i
  let len := leAt img (o + 4) 4
  let a := byteAt img (o + 8)
  decide (1 ≤ len) && decide (len ≤ 65536) && decide (leAt img o 4 * 128 + len ≤ x.sigOff) && leAt img (o + 9) 3 == 0
    && decide (a < as.length) && decide (leAt img (o + 12) 4 < ((as[a]?).map (·.pages)).getD 0)

/-- Entry `i` of the content page table. -/
def imgContent (x : ImgHdr) (img : List Byte) (i : Nat) : Content :=
  let o := x.contentOff + 32 * i
  ⟨i, leAt img o 4 * 128, leAt img (o + 4) 4, byteAt img (o + 8), leAt img (o + 12) 4, (img.drop (o + 16)).take 16⟩

def imgContents (x : ImgHdr) (img : List Byte) : List Content := (List.range x.contents).map (imgContent x img)

/-- The contents that a plan allocation declares name it (R315, R319). DEDUCED (log entry 110). -/
def contentsOwn (as : List PlanAlloc) (cs : List Content) : Bool :=
  as.zipIdx.all fun a => ((cs.drop a.1.first).take a.1.contents).all fun c => c.alloc == a.2

/-- The page is held raw (R183, R319). -/
def Content.raw (c : Content) : Bool := c.len == 65536

/-- A content page decrypted from its ciphertext; none where its tag fails (R319). -/
def Content.plain (c : Content) (imageId : Nat) (key ct : List Byte) : Option (List Byte) :=
  gcmOpen key (leBytes 8 imageId ++ leBytes 4 c.index) (leBytes 4 c.len ++ leBytes 4 c.alloc ++ leBytes 4 c.page) ct c.tag

/-- The tags of every content page of an image hold (R321). -/
def tagsOk (x : ImgHdr) (key img : List Byte) : Bool :=
  (imgContents x img).all fun c => (c.plain x.imageId key ((img.drop c.off).take c.len)).isSome

/-- The folded address of a content page inside an image (R320). -/
def contentFolded (c : Content) : Nat := 2 ^ 63 + c.alloc * 2 ^ 32 + c.page

/-- An image whose CHECK is rewritten for another folded address (R322). -/
def plaitReseal (folded : Nat) (img : List Byte) : List Byte :=
  img.take 12 ++ leBytes 4 (plaitCheck folded img) ++ img.drop 16

/-- The page of an image, a block in error as zeros. -/
def plaitPage (img : List Byte) : List Byte :=
  (List.range plaitBlocks).flatMap fun b => (plaitBlock img b).getD (List.replicate plaitBlockBytes 0)

/-! ### The whole image -/

/-- The content of an image that passes its framing: the weave, without its content key; none is BAD_PARAM (R236). -/
def parseWeave (x : ImgHdr) (img : List Byte) : Option Weave :=
  let ws := bytesWords (x.planLen / 8) (img.drop x.planOff)
  let h := planHdr ws
  if !h.ok ws x then none
  else
    let es := groups (2 + x.cores) h.entries (ws.drop 8)
    let ws := ws.drop (8 + h.entries * (2 + x.cores))
    let al := groups 4 h.allocs ws
    let ws := ws.drop (4 * h.allocs)
    let segs := ws.take (cdiv h.segments 2)
    let ws := ws.drop (cdiv h.segments 2)
    let cl := groups 4 h.classes ws
    let sv := ws.drop (4 * h.classes)
    let allocs := al.map fun a => planAlloc a segs
    let entries := es.map planEntry
    let classes := cl.map planClass
    let secs := (List.range x.cores).map (imgSection x img)
    let cores : List Nat := secs.map (·.core)
    let ok := (List.range x.cores).all (sectionOk x img h.mask) && decide cores.Nodup && cores.contains h.control
      && (h.segments % 2 == 0 || half32 segs h.segments == 0)
      && al.all (fun a => (planAlloc a segs).ok a h.segments x.contents) && es.all (fun e => (planEntry e).ok e allocs)
      && cl.all (fun c => (planClass c).ok c entries h.mask) && classesApart classes
      && (!h.serving || (planServing sv).ok sv entries allocs)
      && (List.range h.entries).all (wcetOk x img entries h) && (List.range x.contents).all (contentOk x img allocs)
      && contentsOwn allocs (imgContents x img)
    if !ok then none
    else some {
      gen := 0, imageId := x.imageId, kinSet := x.kinSet, compat := x.compat, srcSlot := none, srcPage := 0, srcPages := 0
      digest := leAt (sha384 (img.take x.sigOff)) 0 8, sections := secs, entries := entries, allocs := allocs, classes := classes
      serving := if h.serving then some (planServing sv) else none, contents := imgContents x img, key := []
      wcet := (List.range h.entries).map (imgWcet x img), bundles := h.mask, control := h.control, knots := h.knots
      bindOff := h.bindOff, attach := h.attach, bound := none, planSlots := [], attSlots := [], knotIdx := [] }

end Sys2Proof.Machine
end

