-- ==== Sys2Proof/Machine/WeaveCmds.lean ====
section
/-! DEFINITION. WEAVE_LOAD, WEAVE_BIND and WEAVE_DROP (R236–R240, R321, R322). -/

namespace Sys2Proof.Machine

/-! ### The source of an image (R236) -/

/-- What WEAVE_LOAD reads: an allocation, or host-area logical peat pages from a first page. -/
inductive ImgSource where
  | alloc (slot : Nat) (a : Alloc)
  | peat (first : Nat)
  deriving DecidableEq, Repr

/-- Bytes the source can hold. -/
def Device.sourceSize (d : Device) : ImgSource → Nat
  | .alloc _ a => a.bytes
  | .peat f => (d.peat.hostPages - f) * peatPageBytes

/-- `n` bytes of the source from byte `off`. -/
def Device.sourceBytes (d : Device) (src : ImgSource) (off n : Nat) : List Byte :=
  match src with
  | .alloc _ a => d.readBytes a off n
  | .peat f =>
    ((rangeFrom (f + off / peatPageBytes) (cdiv (off % peatPageBytes + n) peatPageBytes)).flatMap d.peat.readPage).drop
      (off % peatPageBytes) |>.take n

/-- The first unreadable line, block or peat page among `n` bytes of the image from byte `off`. -/
def Device.sourceBad (d : Device) (src : ImgSource) (off n : Nat) : Option Unread :=
  match src with
  | .alloc _ a => d.firstBad a off n
  | .peat f =>
    if n = 0 then none
    else ((rangeFrom (off / peatPageBytes) ((off + n - 1) / peatPageBytes - off / peatPageBytes + 1)).find? fun i =>
      d.peat.unreadable (f + i)).map fun i => .poison (max off (i * peatPageBytes))

def weaveSlots : Nat := 16

/-- The checks of WEAVE_LOAD from the header's framing on, and its answer (R236, R321). -/
def Device.loadWeave (d : Device) (now : Nat) (id : CmdId) (src : ImgSource) : Device :=
  let unread (u : Unread) : Device := (d.logUnread now none none u).answer now id stFaulted [BitVec.ofNat 64 u.off]
  match d.sourceBad src 0 128 with
  | some u => unread u
  | none =>
    let h := d.sourceBytes src 0 128
    let x := imgHdr h
    if !x.ok h (d.sourceSize src) then d.answer now id stBadParam []
    else match d.sourceBad src 0 x.length with
      | some u => unread u
      | none =>
        let img := d.sourceBytes src 0 x.length
        let k := d.keyStore
        if !x.padsOk img then d.answer now id stBadParam []
        else match contentKey k.kin x img with
        | none => d.answer now id stDenied []
        | some key =>
          if !signatureOk k.owner img x.sigOff then d.answer now id stDenied []
          else match parseWeave x img with
            | none => d.answer now id stBadParam []
            | some w =>
              if !tagsOk x key img then d.answer now id stDenied []
              else
                let slot := firstGap d.ten.weaves 0
                let gen := d.ten.weaveGen
                let w := { w with
                  gen := gen, key := key
                  srcSlot := match src with | .alloc s _ => some s | .peat _ => none
                  srcPage := match src with | .alloc _ _ => 0 | .peat f => f
                  srcPages := cdiv x.length peatPageBytes }
                let d := { d with ten := { d.ten with
                  weaves := d.ten.weaves.set none slot (some w), weaveGen := (gen + 1) % 256 } }
                d.answer now id stOk [handleWord slot gen,
                  mkWord [(w.entries.length, 0), (w.allocs.length, 16), (b2n w.compat, 25)], BitVec.ofNat 64 w.kinSet]

/-- WEAVE_LOAD (R236). -/
def execWeaveLoad (s : State) : Host.Outcome State Fault Refusal :=
  hostCmd 0x20 s fun now p d =>
    let src := (p.w 2).fld 1 0
    let a := d.byHandle (p.w 3)
    let own := p.bad 2 || decide (1 < src) || rsvBits (p.w 2) 63 2
      || (src == 0 && (handleBad (p.w 3) || rsvBits (p.w 3) 63 32)) || (src == 1 && decide (d.peat.hostPages ≤ (p.w 3).toNat))
    d.checked now p.id
      [(own, stBadParam), (src == 0 && a.isNone, stStaleGen),
       (d.notServed 0x20 || decide (weaveSlots ≤ d.weaves.length), stRefusedState)]
      fun d => d.loadWeave now p.id (match a with
        | some a => if src = 0 then .alloc (handleSlot (p.w 3)) a else .peat (p.w 3).toNat
        | none => .peat (p.w 3).toNat)

/-! ### Binding (R237, R322) -/

/-- The most pages of any `n` consecutive segments (R181). -/
def windowFrames (segs : List Nat) (n : Nat) : Nat :=
  if n = 0 then 0 else (((List.range segs.length).map fun i => ((segs.drop i).take n).sum).max?).getD 0

/-- Frames that an allocation of the plan needs in its half (R118): map pages, its window reservation, its pinned pages. -/
def PlanAlloc.frames (a : PlanAlloc) : Nat :=
  (if flagPin a.flags || a.map then a.pages else 0) + windowFrames a.segs (flagWindow a.flags)

/-- The plan's frames fit in the half (R118). -/
def Device.framesFit (d : Device) (w : Weave) (h : Nat) : Bool :=
  decide (((w.allocs.filter fun a => halfNum (flagHalf a.flags) == h).map PlanAlloc.frames).sum + d.framesUsed h ≤ mereFrames)

/-- The plan's allocations made in plan order; none where capacity, slots or space lack (R168, R171). -/
def Device.makePlan (d : Device) (now slot : Nat) : List PlanAlloc → Option (List Nat × Device)
  | [] => some ([], d)
  | a :: as =>
    match d.homeOf a.flags a.pages, freeRun d.allocs a.pages with
    | some peat, some p0 =>
      if 65536 ≤ d.allocs.length then none
      else
        let (s, _, e) := d.makeAlloc now a.flags a.pages peat (some slot) a.map (windowFrames a.segs (flagWindow a.flags)) p0
        (e.makePlan now slot as).map fun r => (s :: r.1, r.2)
    | _, _ => none

/-- The lowest global knots that no weave owns and that are not withdrawn. -/
def Device.freeKnots (d : Device) (n : Nat) : List Nat :=
  (((List.range globalKnots).filter fun i => (d.gknot i).owner.isNone && !(d.gknot i).withdrawn)).take n

/-- The name of a global knot (R70). -/
def Device.globalName (d : Device) (i : Nat) : Nat := 2 ^ 28 + i * 2 ^ 16 + (d.gknot i).gen

/-- The source of a loaded weave's image. -/
def Device.weaveSource (d : Device) (w : Weave) : Option ImgSource :=
  match w.srcSlot with
  | none => some (.peat w.srcPage)
  | some s => (d.alloc? s).map (.alloc s)

/-- A content page read from the image and decrypted; none where it is unreadable or its tag or CHECK fails (R322). -/
def Device.readContent (d : Device) (w : Weave) (c : Content) : Option (List Byte) :=
  (d.weaveSource w).bind fun src =>
    if (d.sourceBad src c.off c.len).isSome then none
    else (c.plain w.imageId w.key (d.sourceBytes src c.off c.len)).filter fun bs =>
      c.raw || leAt bs 12 4 == plaitCheck (contentFolded c) bs

/-- A content page is written to its home: in a PLAIT allocation as the image it is, with CHECK rewritten, else raw (R322). A pinned or
map page fills its frame (R172). -/
def Device.writeContent (d : Device) (now : Nat) (a : Alloc) (page : Nat) (raw : Bool) (bs : List Byte) : Device :=
  let h := flagHalf a.flags
  let img := if raw || !flagPlait a.flags then none else some (plaitReseal (a.folded page) bs)
  let d := { d with mem := { d.mem with
    bytes := d.mem.bytes.setList 0 (page * pageBytes) (if raw then bs else plaitPage bs)
    form := d.mem.form.set .fresh page (formOf img)
    staged := d.mem.staged.set false page (a.peat && (d.peat.cellRun page (imagePages img)).isNone) } }
  let d := if a.peat then d.storePage now a page img
    else d.requests now (dramFirst (halfNum h) (d.physOf page) portSteward (formOf img).lines) (stewardLst now) ⟨none, none, .steward⟩
  if flagPin a.flags || a.map then d.fillFrame h page else d

/-- A content page of a bound weave is placed in its allocation, if the allocation declares it; one that cannot be read is poisoned
and recorded as WEAVE_PAGE_LOST (R322). -/
def Device.placeContent (d : Device) (now : Nat) (w : Weave) (slots : List Nat) (c : Content) : Device :=
  match w.allocs[c.alloc]?, (slots[c.alloc]?).bind d.alloc? with
  | some x, some a =>
    if c.index < x.first || x.first + x.contents ≤ c.index then d
    else
      let page := a.p0 + c.page
      match (d.readContent w c).filter fun bs => c.raw || flagPlait a.flags || (plaitDecode (contentFolded c) bs).isSome with
      | some bs => d.writeContent now a page c.raw bs
      | none =>
        let lpn := if w.srcSlot.isNone then w.srcPage + c.off / peatPageBytes else 0
        ({ d with mem := { d.mem with poison := d.mem.poison.set false page true } } : Device).logFault now fcWeavePageLost none none lpn
          ((d.peat.lookup lpn).getD 0)
  | _, _ => d

/-- The argument block: knot names, plan base addresses, attached base addresses (R322). -/
def Device.argumentBlock (d : Device) (w : Weave) : List Word :=
  let base (s : Nat) : Word := BitVec.ofNat 64 (((d.alloc? s).map (·.base)).getD 0)
  w.knotIdx.map (fun i => BitVec.ofNat 64 (d.globalName i)) ++ w.planSlots.map base ++ w.attSlots.map base

/-- The table or the next table names a weave for Tier 1 (R362). -/
def Device.tableNames (d : Device) (h : Word) : Bool :=
  let f (t : Option WakeTable) : Bool := (t.map fun t => (wordAt t.words 0).fld 63 32 == h.fld 31 0 && h.fld 31 0 != 0) == some true
  f d.cas.table || f (d.cas.next.getD none)

/-- The plan is carried out (R237, R322): knots, sections, contents, argument block. -/
def Device.bindWeave (d : Device) (now slot part : Nat) (atts plan : List Nat) : Device :=
  match d.weave? slot with
  | none => d
  | some w =>
    let ks := d.freeKnots w.knots
    let w := { w with bound := some part, planSlots := plan, attSlots := atts, knotIdx := ks }
    let d := forEach d ks fun d i => d.setGknot i { d.gknot i with owner := some part, arm := none }
    let d := { d with ten := { d.ten with weaves := d.ten.weaves.set none slot (some w) } }
    let d := d.modPart part fun q => { q with weave := some slot }
    let d := d.placeSections w
    let d := forEach d w.contents fun d c => d.placeContent now w plan c
    d.modCore w.control fun k => { k with pool := k.pool.setList 0 w.bindOff (wordsBytes (d.argumentBlock w)) }

/-- Handle and base of each plan allocation in turn. -/
def Device.planWords (d : Device) (plan : List Nat) : List Word :=
  plan.flatMap fun s => match d.alloc? s with
    | some a => [handleWord s a.gen, BitVec.ofNat 64 a.base]
    | none => [0, 0]

/-- WEAVE_BIND (R237). -/
def execWeaveBind (s : State) : Host.Outcome State Fault Refusal :=
  hostCmd 0x21 s fun now p d =>
    let part := (p.w 3).fld 3 0
    let n := (p.w 3).fld 14 8
    let atts := (p.words.drop 4).take n
    let own := p.badFlags || decide (64 < n) || p.len != 5 + n || handleBad (p.w 2) || rsvBits (p.w 2) 63 32
      || rsvBits (p.w 3) 7 4 || rsvBits (p.w 3) 63 15 || atts.any fun h => handleBad h || rsvBits h 63 32
    match d.weaveByHandle (p.w 2) with
    | none => d.answer now p.id (if own then stBadParam else stStaleGen) []
    | some w =>
      let slot := handleSlot (p.w 2)
      let q := d.part part
      let made := d.makePlan now slot w.allocs
      d.checked now p.id
        [(own, stBadParam), (atts.any fun h => (d.byHandle h).isNone, stStaleGen), (n != w.attach, stBadParam),
         (d.notServed 0x21 || d.pwr.state != .run || d.pwr.handOver || !q.defined || q.oos || q.weave.isSome || w.bound.isSome
            || w.compat != q.compat || q.bundles != w.bundles || d.tableNames (p.w 2)
            || (w.serving.isSome && d.servingWeave.isSome) || !d.framesFit w 0 || !d.framesFit w 1
            || decide ((d.freeKnots w.knots).length < w.knots) || made.isNone, stRefusedState)]
        fun d => match made with
          | none => d
          | some (plan, e) =>
            let e := e.bindWeave now slot part (atts.map handleSlot) plan
            e.answer now p.id stOk (e.planWords plan)

/-- What forbids unbinding a weave (R239): work on it, streams of its classes, sequences of a serving weave. -/
def Device.weaveBusy (d : Device) (slot : Nat) (w : Weave) : Bool :=
  match w.bound with
  | none => false
  | some q =>
    (d.part q).allItems.any (·.weave == slot)
      || d.ten.streams.any (fun e => (e.2.map (·.weave)) == some slot)
      || (w.serving.isSome && d.ten.seqs.any fun e => e.2.phase ≠ 0)

/-- WEAVE_DROP (R239, R362). -/
def execWeaveDrop (s : State) : Host.Outcome State Fault Refusal :=
  hostCmd 0x22 s fun now p d =>
    let own := p.bad 2 || handleBad (p.w 2) || rsvBits (p.w 2) 63 32 || rsvBits (p.w 3) 63 1
    match d.weaveByHandle (p.w 2) with
    | none => d.answer now p.id (if own then stBadParam else stStaleGen) []
    | some w =>
      let slot := handleSlot (p.w 2)
      d.checked now p.id
        [(own, stBadParam), (d.notServed 0x22 || d.tableNames (p.w 2) || d.weaveBusy slot w, stRefusedState)]
        fun d =>
          let d := d.unbind now slot
          let d := if (p.w 3).getLsbD 0 then { d with ten := { d.ten with weaves := d.ten.weaves.set none slot none } } else d
          d.answer now p.id stOk []

end Sys2Proof.Machine
end

