-- ==== Sys2Proof/Machine/Pace.lean ====
section
/-! DEFINITION. Paces (R13–R22, R242, R257, R376): the interlock of each rail, replica monitors, PACE_SET and the boost
(R384), PARTITION_SET (R241). -/

namespace Sys2Proof.Machine

/-- Self-timed domains (R13). -/
def domains : List Nat := List.range 35
def domainsOn (r : Nat) : List Nat := domains.filter fun i => railOf i == r
/-- The rail's maximum operating voltage (R448). -/
def railMaxMv : Nat := 900

/-! ### Floors (R22, R331) -/

/-- Declared rate of a pipe slot in pixels a second (R331). -/
def PipeSlot.rate (x : PipeSlot) : Nat :=
  (wordAt x.block 0).fld 45 32 * (wordAt x.block 0).fld 59 46 * (wordAt x.block 1).fld 39 32

/-- The lowest pace that covers a rate of steps a second. -/
def paceFor (rate : Nat) : Nat := ((List.range 8).find? fun p => decide (rate ≤ paceRate p * 1000000)).getD 7

/-- The pace floor of a domain: the highest promise pace of the outstanding promises of the partitions that use it; for an
ISP pipe the pace that covers its slots. -/
def Device.floorOf (d : Device) (i : Nat) : Nat :=
  let users := (List.range 16).filter fun p => !(d.part p).allItems.isEmpty && (d.partDomains p).contains i
  let promises := users.flatMap fun p => (d.part p).allItems.map (·.pace)
  let pipe := if 30 ≤ i ∧ i < 34 then paceFor ((((d.cam.pipes.get Pipe.init (i - 30)).slots.map PipeSlot.rate).sum)) else 0
  max pipe ((promises.max?).getD 0)

/-- Die of a domain: 0 hub, 1 half 0, 2 half 1. -/
def dieOf (i : Nat) : Nat := match railOf i with | 0 => 1 | 1 => 2 | _ => 0

/-- The cap of a domain's die (R380); 7 is none. -/
def Device.capOf (d : Device) (i : Nat) : Nat := d.therm.cap.get 7 (dieOf i)

/-- The pace a domain takes when `want` is set on it: no higher than the cap, and not below its floor unless
THERMAL_DEGRADE is outstanding (R380, R381). -/
def Device.goal (d : Device) (i want : Nat) : Nat :=
  let x := min want (d.capOf i)
  if d.therm.degrade then x else max (d.floorOf i) x

/-! ### The interlock (R17–R20) -/

/-- The lowest pace in force that the running items of a domain's partitions have met (R394). -/
def Device.notePace (d : Device) (i : Nat) : Device :=
  let pace := (d.dom i).pace
  { d with parts := d.parts.map fun e =>
      (e.1, if e.2.running.isSome && (d.partDomains e.1).contains i then
        { e.2 with running := e.2.running.map fun r => { r with pmin := min r.pmin pace } } else e.2) }

def Device.putPace (d : Device) (i pace : Nat) : Device := (d.modDom i fun x => { x with pace := pace }).notePace i

/-- The voltage a rail needs (R15, R16, R377): the minimum of the highest pace in force or asked for among its domains that
are powered or about to be, with the offset, and no less than the power state gives the rail. -/
def Device.needMv (d : Device) (r : Nat) (targets : List (Nat × Nat)) (offset : Nat) : Nat :=
  let paces := (domainsOn r).filterMap fun i =>
    let want := (targets.find? fun t => t.1 == i).map (·.2)
    if (d.dom i).on then some (max (d.dom i).pace (want.getD 0)) else want
  let mv := match paces.max? with
    | none => 0
    | some p => min railMaxMv (paceMv p + offset)
  max mv (d.stateMinMv d.layout r)

/-- A transition of a rail begins (R17, R18). A raise that needs no higher voltage takes its 20 µs at once. A change of paces
takes the offset of R16 back; a shortfall adds 10 mV to it, once for all that is asked while one transition runs. -/
def Device.startTrans (d : Device) (now r : Nat) (ask : RailAsk) : Device :=
  let raising := ask.raise_ || ask.bump || ask.targets.any fun t => decide ((d.dom t.1).pace < t.2)
  let offset := (if ask.targets.isEmpty then (d.rail r).offset else 0) + (if ask.bump then 10 else 0)
  let old := ask.targets.map fun t => (t.1, (d.dom t.1).pace)
  let mv := d.needMv r ask.targets offset
  let write := (d.rail r).mv < mv || (d.rail r).cmd < mv
  let phase : RailPhase := if !raising then .acks (ask.targets.map (·.1)) else if write then .settling else .settled
  d.modRail r fun x => { x with
    offset := offset, cmd := if raising && write then mv else x.cmd
    trans := some ⟨raising, ask.targets, old, mv, phase, now⟩ }

/-- Nothing is asked. -/
def RailAsk.isEmpty (a : RailAsk) : Bool := !a.raise_ && !a.bump && a.targets.isEmpty

/-- Later targets override earlier ones (R19). -/
def mergeTargets (new old : List (Nat × Nat)) : List (Nat × Nat) := new ++ old.filter fun o => !new.any fun n => n.1 == o.1

/-- A request reaches the sequencer: it starts, or is held and merged (R19). -/
def Device.paceRequest (d : Device) (now r : Nat) (ask : RailAsk) : Device :=
  if ask.isEmpty then d
  else match (d.rail r).trans with
    | none => d.startTrans now r ask
    | some _ => d.modRail r fun x => { x with held := some (match x.held with
        | none => ask
        | some h => ⟨ask.raise_ || h.raise_, ask.bump || h.bump, mergeTargets ask.targets h.targets⟩) }

/-- A transition or a held request still concerns a domain. -/
def Device.paceMoving (d : Device) (i : Nat) : Bool :=
  let x := d.rail (railOf i)
  (x.trans.any fun t => t.targets.any (·.1 == i)) || (x.held.any fun h => h.targets.any (·.1 == i))

/-- The lowest pace in force among domains. -/
def Device.lowest (d : Device) (is : List Nat) : Nat := ((is.map fun i => (d.dom i).pace).min?).getD 0

/-- PACE_SET and PARTITION_SET commands whose domains have arrived are answered (R241, R257). -/
def Device.paceReplies (d : Device) (now : Nat) : Device :=
  let arrived := d.pace.waits.filter fun w => !w.doms.any d.paceMoving
  let d := { d with pace := { d.pace with waits := d.pace.waits.filter fun w => w.doms.any d.paceMoving } }
  forEach d arrived fun d w =>
    let low := BitVec.ofNat 64 (d.lowest w.doms)
    match w.part with
    | none => d.answer now w.id stOk [low]
    | some p => d.answer now w.id stOk [(d.part p).word p, BitVec.ofNat 64 (d.lowest (d.partDomains p))]

/-- The pace a domain takes when a lowering to `want`, asked for earlier, reaches it: the floor may have risen since (R22). -/
def Device.clamped (d : Device) (i want : Nat) : Nat :=
  let x := d.dom i
  if d.therm.degrade || x.pace ≤ want then want else max want (min x.pace (d.floorOf i))

/-- A rail's transition is over: a held request starts (R19), what it lowers clamped to the floors as they now stand (R22). -/
def Device.endTrans (d : Device) (now r : Nat) : Device :=
  let held := (d.rail r).held
  let d := d.modRail r fun x => { x with trans := none, held := none }
  let d := match held with
    | none => d
    | some a =>
      let ts := a.targets.map fun (t : Nat × Nat) => (t.1, d.clamped t.1 t.2)
      d.paceRequest now r { a with targets := ts.filter fun (t : Nat × Nat) => (d.dom t.1).pace ≠ t.2 }
  d.paceReplies now

/-- Domains take new paces: through their rails, or at once where a domain is not powered. -/
def Device.setPaces (d : Device) (now : Nat) (targets : List (Nat × Nat)) : Device :=
  let (on, off) := targets.partition fun t => (d.dom t.1).on
  let d := forEach d off fun d t => d.putPace t.1 t.2
  let live := on.filter fun t => (d.dom t.1).pace ≠ t.2 || d.paceMoving t.1
  forEach d [0, 1, 2] fun d r => d.paceRequest now r ⟨false, false, live.filter fun t => railOf t.1 == r⟩

/-! ### Supply alarms (R16, R20, R32, R376) -/

/-- A cause of R32 is raised while the members of an item are unanswered. -/
def Item.caused (it : Item) : Item := { it with members := it.members.map fun m => { m with cause := true } }

/-- Every outstanding item, and the run of a running one, meets a cause of R32. -/
def Device.markMet (d : Device) : Device :=
  { d with parts := d.parts.map fun e => (e.1, { e.2 with
      items := e.2.items.map Item.caused
      running := e.2.running.map fun r => { r with met := true, item := r.item.caused } }) }

/-- A supply alarm is raised on a rail (R213). -/
def Device.alarm (d : Device) (now r cause : Nat) : Device :=
  ((d.modRail r fun x => { x with alarm := true }).raise now 2 0x0011 (mkWord [(r, 0), (cause, 8)]) 0).markMet

/-! ### Events of the sequencer -/

/-- A monitor of a domain takes a sample (R16). -/
def DomSt.sample (x : DomSt) (mon : Nat) (m : Monitor) : DomSt := { x with monitors := x.monitors.set {} mon m }

/-- No monitor of a domain reads a shortfall. -/
def DomSt.steady (x : DomSt) : Bool := x.monitors.all fun e => !e.2.short

/-- REPLICA_SAMPLE: a replica monitor of a domain reads below its pace's rate, or not; it measures once every 1 µs (R16). -/
def execReplicaSample (at_ : MonitorId) (low : Bool) (s : State) : Host.Outcome State Fault Refusal :=
  s.act fun now d =>
    let i := at_.dom.val; let mon := at_.mon; let r := railOf i
    let m := (d.dom i).monitors.get {} mon
    if !(d.dom i).on || m.at_.any (fun t => decide (now < t + 1000)) then d
    else if !low then
      let d := d.modDom i fun x => x.sample mon ⟨0, some now, false⟩
      if (d.dom i).atMaxSince.isSome && (d.dom i).steady then
        let d := d.modDom i fun x => { x with atMaxSince := none }
        if (domainsOn r).any fun j => (d.dom j).atMaxSince.isSome then d else d.modRail r fun x => { x with alarm := false }
      else d
    else if m.lows + 1 < 3 then d.modDom i fun x => x.sample mon { m with lows := m.lows + 1, at_ := some now }
    else
      let d := (d.modDom i fun x => x.sample mon ⟨0, some now, true⟩).raise now 2 0x0012 (mkWord [(i, 0), ((d.dom i).pace, 8)]) 0
      if railMaxMv ≤ (d.rail r).mv then d.modDom i fun x => { x with atMaxSince := some (x.atMaxSince.getD now) }
      else d.paceRequest now r ⟨false, true, []⟩

/-- SHORTFALL_AT_MAX: a shortfall that persists for 50 µs at the rail's maximum is a supply alarm (R16). -/
def execShortfallAtMax (dom : Dom) (s : State) : Host.Outcome State Fault Refusal :=
  s.act fun now d =>
    match (d.dom dom.val).atMaxSince with
    | none => d
    | some t => if t + 50000 ≤ now && !(d.rail (railOf dom.val)).alarm then d.alarm now (railOf dom.val) 0 else d

/-- The acknowledges are in: the voltage write is issued, if the voltage changes (R17). -/
def Device.acked (d : Device) (now r : Nat) (t : RailTrans) : Device :=
  let mv := d.needMv r [] (d.rail r).offset
  if mv = (d.rail r).mv ∧ mv = (d.rail r).cmd then d.endTrans now r
  else d.modRail r fun x => { x with cmd := mv, trans := some { t with phase := .settling, mv := mv, since := now } }

/-- DOMAIN_PACE_ACK: a domain adopts its lower pace, clamped to its floor as it now stands, and acknowledges, within 2 µs (R17,
R22). -/
def execDomainPaceAck (dom : Dom) (s : State) : Host.Outcome State Fault Refusal :=
  s.act fun now d =>
    let i := dom.val; let r := railOf i
    match (d.rail r).trans with
    | none => d
    | some t => match t.phase with
      | .acks left =>
        if !left.contains i || t.since + 2000 < now then d
        else
          let d := d.putPace i (d.clamped i (((t.targets.find? fun x => x.1 == i).map (·.2)).getD 0))
          let left := left.erase i
          let t := { t with phase := .acks left }
          if left.isEmpty then d.acked now r t else d.modRail r fun x => { x with trans := some t }
      | _ => d

/-- PACE_ACK_TIMEOUT: a domain has not acknowledged within 2 µs: no voltage write, the domain in the fault log (R20). -/
def execPaceAckTimeout (r : Rail) (s : State) : Host.Outcome State Fault Refusal :=
  s.act fun now d =>
    match (d.rail r.val).trans with
    | none => d
    | some t => match t.phase with
      | .acks left =>
        if now < t.since + 2000 then d
        else (forEach d left fun d i => d.logFault now fcPaceAck none none i 0).endTrans now r.val
      | _ => d

/-- AVS_SETTLED: the regulator reports settled (R17, R18). From OFF or EMBER, the settling of VDD_HUB starts the entropy
source (R440). -/
def execAvsSettled (r : Rail) (s : State) : Host.Outcome State Fault Refusal :=
  s.act fun now d =>
    match (d.rail r.val).trans with
    | none => d
    | some t =>
      if t.phase = .settling then
        let d := d.modRail r.val fun x => { x with mv := t.mv, alarm := false, badFrames := 0 }
        let d := if r.val = 2 && d.pwr.state == .ember && d.pwr.pfail.isNone && d.aon.boot == .done then
            { d with sec := { d.sec with startAt := some now } } else d
        if t.raising then d.modRail r.val fun x => { x with trans := some { t with phase := .settled, since := now } }
        else d.endTrans now r.val
      else d

/-- PACE_APPLY: 20 µs after the rail has settled, the new paces are applied (R18). A domain that reaches pace 7 starts a
boost (R384). -/
def execPaceApply (r : Rail) (s : State) : Host.Outcome State Fault Refusal :=
  s.act fun now d =>
    match (d.rail r.val).trans with
    | none => d
    | some t =>
      if t.phase = .settled && decide (t.since + 20000 ≤ now) then
        let d := forEach d t.targets fun d x => (d.modDom x.1 fun y => { y with on := true }).putPace x.1 x.2
        let d := if t.targets.any (·.2 == 7) && d.pace.boostStart.isNone then
            { d with pace := { d.pace with boostStart := some now } } else d
        d.endTrans now r.val
      else d

/-- A lowering's rail has not settled: the domains return to their old paces, the rail counts as the lower of its two voltages,
and the voltage that the old paces need is asked for again (R15, R20; log entry 93). -/
def Device.undoLowering (d : Device) (r : Nat) (t : RailTrans) : Device :=
  let d := forEach d t.old fun d x => if (d.dom x.1).on then d.putPace x.1 x.2 else d
  d.modRail r fun x => { x with
    mv := min x.mv t.mv
    held := some (match x.held with | none => ⟨true, false, []⟩ | some h => { h with raise_ := true }) }

/-- AVS_SETTLE_TIMEOUT: not settled within 1 ms of the write: the transition ends with the old pace, and a supply alarm is
raised (R20). -/
def execAvsSettleTimeout (r : Rail) (s : State) : Host.Outcome State Fault Refusal :=
  s.act fun now d =>
    match (d.rail r.val).trans with
    | none => d
    | some t =>
      if t.phase = .settling && decide (t.since + 1000000 ≤ now) then
        let d := if t.raising then d else d.undoLowering r.val t
        (d.alarm now r.val 1).endTrans now r.val
      else d

/-- AVS_FRAME_RESPONSE: three frames in a row whose responses fail their CRC are a supply alarm (R376). -/
def execAvsFrameResponse (r : Rail) (crcOk : Bool) (s : State) : Host.Outcome State Fault Refusal :=
  s.act fun now d =>
    if crcOk then d.modRail r.val fun x => { x with badFrames := 0 }
    else
      let n := (d.rail r.val).badFrames + 1
      if n < 3 then d.modRail r.val fun x => { x with badFrames := n }
      else (d.modRail r.val fun x => { x with badFrames := 0 }).alarm now r.val 1

/-! ### PACE_SET (R257) and the boost (R384) -/

/-- The boost envelope: a PACE_SET of pace 7 is taken. -/
def Device.boostOk (d : Device) (now : Nat) : Bool :=
  d.pwr.state == .run && !d.pwr.handOver && !d.therm.degrade && !d.supplyAlarm && decide (d.therm.device ≤ 90 * 16)
    && (match d.pace.boostEnd with | none => true | some t => decide (t + 20000000000 ≤ now))

/-- A PACE_SET of one domain is refused: below its floor, a raise under an alarm, or pace 7 outside the envelope. -/
def Device.paceRefused (d : Device) (now i pace : Nat) : Bool :=
  decide (pace < d.floorOf i) || (decide ((d.dom i).pace < pace) && (d.therm.degrade || d.supplyAlarm))
    || (pace == 7 && !d.boostOk now)

/-- PACE_SET (R257). Outside RUN the paces are the state's own (R370, R377): what is set takes effect on entering RUN. -/
def execPaceSet (s : State) : Host.Outcome State Fault Refusal :=
  hostCmd 0x61 s fun now p d =>
    let dom := (p.w 2).fld 7 0
    let pace := (p.w 2).fld 10 8
    let is := if dom = 0xFF then domains else [dom]
    d.checked now p.id
      [(p.bad 1 || rsvBits (p.w 2) 63 11 || (decide (34 < dom) && dom != 0xFF), stBadParam),
       (d.notServed 0x61 || is.any fun i => d.paceRefused now i pace, stRefusedState)]
      fun d =>
        let d := forEach d is fun d i => d.modDom i fun x => { x with setPace := pace }
        let d := if d.pwr.state = .run then d.setPaces now (is.map fun i => (i, d.goal i pace)) else d
        ({ d with pace := { d.pace with waits := d.pace.waits ++ [⟨p.id, is, none⟩] } } : Device).paceReplies now

/-- The pace set on a domain as every cause but a boost takes it: pace 7 counts as 6 (R377, R384). -/
def Device.setOf (d : Device) (i : Nat) : Nat :=
  let x := (d.dom i).setPace
  if x = 7 && d.pace.boostStart.isNone then 6 else x

/-- What rises to pace 7 rises to pace 6. -/
def sixFor (ts : List (Nat × Nat)) : List (Nat × Nat) := ts.map fun t => (t.1, min 6 t.2)

/-- The boost ends: every domain at pace 7, or on its way there, goes to pace 6 together (R384). -/
def Device.endBoost (d : Device) (now : Nat) : Device :=
  if d.pace.boostStart.isNone then d
  else
    let d := { d with pace := { d.pace with boostStart := none, boostEnd := some now } }
    let d := forEach d [0, 1, 2] fun d r => d.modRail r fun x => { x with
      trans := x.trans.map fun t => if t.raising then { t with targets := sixFor t.targets } else t
      held := x.held.map fun a => { a with targets := sixFor a.targets } }
    let high := domains.filter fun i => (d.dom i).pace == 7
    d.setPaces now (high.map fun i => (i, 6))

/-- BOOST_END: 2 s have passed, or Tj has reached 100 °C (R384). -/
def execBoostEnd (s : State) : Host.Outcome State Fault Refusal :=
  s.act fun now d =>
    match d.pace.boostStart with
    | none => d
    | some t => if t + 2000000000 ≤ now || decide (100 * 16 ≤ d.therm.device) then d.endBoost now else d

/-- Domains below a pace are raised to it (R242): the pace is then set on them. -/
def Device.raiseTo (d : Device) (now : Nat) (is : List Nat) (pace : Nat) : Device :=
  let low := is.filter fun i => decide ((d.dom i).pace < pace)
  let d := forEach d low fun d i => d.modDom i fun x => { x with setPace := max x.setPace pace }
  d.setPaces now (low.map fun i => (i, pace))

/-! ### PARTITION_SET (R241, R242) -/

/-- The bundles lie in another defined partition, or are degraded (R44, R47). -/
def Device.bundlesTaken (d : Device) (p mask : Nat) : Bool :=
  (bundlesOf mask).any fun b => d.fab.degraded.get false b || (List.range 16).any fun q => q != p && (d.part q).holds b

/-- PARTITION_SET (R241). -/
def execPartitionSet (s : State) : Host.Outcome State Fault Refusal :=
  hostCmd 0x23 s fun now p d =>
    let w := p.w 2
    let n := w.fld 3 0
    let mask := w.fld 23 8
    let pg := w.fld 26 24
    let compat := w.getLsbD 27
    let q := d.part n
    let bound := q.weave.isSome
    let cur := if q.defined then q.bundles else 0
    d.checked now p.id
      [(p.bad 1 || pg == 7 || w.getLsbD 28 || rsvBits w 7 4 || rsvBits w 63 29, stBadParam),
       (d.notServed 0x23 || d.pwr.state != .run || d.pwr.handOver || d.bundlesTaken n mask || (bound && mask != cur)
          || (bound && compat != q.compat), stRefusedState)]
      fun d =>
        if mask = 0 then
          let d := d.modPart n Part.removed
          d.answer now p.id stOk [mkWord [(n, 0)], 0]
        else
          let back := q.defined && q.oos && mask == q.bundles
          let d := d.setPart n { q with
            defined := true, bundles := mask, pg := pg, compat := compat
            oos := q.oos && !back, resetTimes := if back then [] else q.resetTimes }
          let ds := d.partDomains n
          let d := d.raiseTo now ds pg
          ({ d with pace := { d.pace with waits := d.pace.waits ++ [⟨p.id, ds, some n⟩] } } : Device).paceReplies now

end Sys2Proof.Machine
end

