-- ==== Sys2Proof/Machine/Work.lean ====
section
/-! DEFINITION. Admission of work (R21–R33, R37): the demand test, the terms of a due, and the work commands RUN, DECIDE,
STREAM_STEP and SEQ_FEED with the commands on streams, sequences and outstanding work (R126–R150, R243–R254). -/

namespace Sys2Proof.Machine

/-! ### The demand test (R28) -/

/-- An item as the demand test sees it. -/
structure TestItem where
  d : Nat
  seq : Nat
  c : Nat
  exposed : Bool
  deriving DecidableEq, Repr

/-- The item that runs, or the compute reset that runs in its place: it stands before every item and its own deadline is
not checked. -/
structure TestRun where
  rem : Nat
  it : TestItem
  reset : Bool
  deriving DecidableEq, Repr

/-- What a partition holds when the test is made. `front` is what stands before every queued item: transitions and
program windows (R33, R37). -/
structure Load where
  running : Option TestRun
  queued : List TestItem
  front : Nat
  deriving DecidableEq, Repr

/-- A compute reset in ns (R24, R28). -/
def RESET_NS : Nat := 2500000

def TestItem.before (j k : TestItem) : Bool := decide (j.d < k.d) || (j.d == k.d && decide (j.seq ≤ k.seq))

/-- The running item comes before `k` in the order of R28; a reset stands before every item. -/
def TestRun.ahead (r : TestRun) (k : TestItem) : Bool := r.reset || r.it.before k

/-- `k` is the running item. -/
def Load.isRunning (p : Load) (k : TestItem) : Bool :=
  match p.running with
  | some r => !r.reset && r.it.seq == k.seq
  | none => false

/-- Work that must finish by the deadline of `k` (R28). `new` is the item under test, none when the test is made as the
partition stands. -/
def Load.need (p : Load) (new : Option TestItem) (k : TestItem) (a0 : Nat) : Nat :=
  let ahead := (p.queued ++ new.toList).filter (·.before k)
  let w := ((p.running.map (·.rem)).getD 0) + (ahead.map (·.c)).sum + (if p.isRunning k then 0 else p.front)
    + (if new.any (·.before k) then a0 else 0)
  if k.exposed then w
  else
    let cand := (ahead.filter (!·.exposed)).map (·.c)
      ++ (p.running.toList.filter fun r => r.ahead k && !r.it.exposed).map (·.it.c)
    w + RESET_NS + (cand.max?).getD 0

/-- The items whose deadlines are checked: not a reset's, and not one already past (R32). -/
def Load.checkedItems (p : Load) (now : Nat) (new : Option TestItem) : List TestItem :=
  ((p.queued ++ (p.running.toList.filter (!·.reset)).map (·.it)).filter fun k => decide (now ≤ k.d)) ++ new.toList

/-- The demand test (R28). -/
def Load.fits (p : Load) (now : Nat) (new : Option TestItem) (a0 : Nat) : Bool :=
  (p.checkedItems now new).all fun k => decide (now + p.need new k a0 ≤ k.d)

/-- The deadlines present, in ascending order. -/
def Load.marks (p : Load) : List Nat :=
  let ds := p.queued.map (·.d) ++ (p.running.toList.filter (!·.reset)).map (·.it.d)
  ds.mergeSort (fun a b => decide (a ≤ b))

/-- The due of `new` placed after `lo`. -/
def Load.placed (p : Load) (now : Nat) (new : TestItem) (a0 lo : Nat) : TestItem :=
  let new := { new with d := lo }
  { new with d := max lo (now + p.need (some new) new a0) }

/-- The earliest placement that fits; where none does, the last (R28 calls that not reached). -/
def Load.firstFit (p : Load) (now : Nat) (new : TestItem) (a0 : Nat) : List Nat → Nat
  | [] => new.d
  | lo :: los =>
    let x := p.placed now new a0 lo
    if los.isEmpty || p.fits now (some x) a0 then x.d else p.firstFit now new a0 los

/-- earliest_due (R28); with a floor, placements are tried from it onward (R129, R149). -/
def Load.earliestDue (p : Load) (now : Nat) (new : TestItem) (a0 floor : Nat) : Nat :=
  let from_ := max now floor
  p.firstFit now new a0 (from_ :: p.marks.filter fun m => decide (floor = 0) || decide (floor < m))

/-! ### What a partition holds -/

def Item.test (it : Item) : TestItem := ⟨it.d, it.seq, it.c, it.exposed⟩

/-- What the running item still takes: c where its run met a cause of R32 (R28). -/
def Running.rem (r : Running) (now : Nat) : Nat := if r.met then r.item.c else r.at_ + r.item.c - now

/-- Remaining duration of a channel's window: its whole 12 ms while it is pending (R37). -/
def windowNs : Nat := 12000000
def Window.left (w : Window) (now : Nat) : Nat :=
  match w with
  | .none => 0
  | .pending _ => windowNs
  | .opened t => t + windowNs - now

/-- Windows of several channels add (R37). -/
def Device.windowsLeft (d : Device) (now : Nat) : Nat :=
  ((List.range 4).map fun c => (d.peat.windows.get .none c).left now).sum

/-- Partition `p` as the demand test sees it; windows stand in it when it holds, or the command brings, an item whose M
counts a peat read. -/
def Device.load (d : Device) (now p : Nat) (peat : Bool) : Load :=
  let q := d.part p
  { running :=
      match q.reset with
      | some r => some ⟨r.t0 + resetNs r.noSlotTest - now, ⟨0, 0, 0, true⟩, true⟩
      | none => q.running.map fun r => ⟨r.rem now, r.item.test, false⟩
    queued := q.items.map Item.test
    front := if peat || q.allItems.any (·.peat) then d.windowsLeft now else 0 }

/-! ### The terms of a due (R23–R27) -/

/-- T_PAGE, T_GATHER_BASE and T_GATHER_LINE at a full rate (R279). -/
def dramTerms : FullRate → Nat × Nat × Nat
  | .r6400 => (1000, 250, 10)
  | .r5600 => (1120, 260, 12)
  | .r4800 => (1290, 270, 14)
/-- T_PEAT (R26). -/
def tPeat : Nat := 90000

/-- The allocation that a WCET source names (R318). -/
def Weave.source (w : Weave) (ref : Nat) : Option Nat := if ref < 256 then w.planSlots[ref]? else w.attSlots[ref - 256]?

/-- M of an entry for a run of `b` members, and whether it counts a peat read (R318). -/
def Device.memTerm (d : Device) (w : Weave) (x : Wcet) (b : Nat) : Nat × Bool :=
  let (tPage, tBase, tLine) := dramTerms d.dram.rate
  let at_ (f p : Nat) : Nat := f + p * b
  x.srcs.foldl (fun acc s =>
      let pages := at_ s.pagesF s.pagesP
      let blocks := at_ s.blocksF s.blocksP
      if ((w.source s.ref).bind d.alloc?).any (·.peat) then
        (acc.1 + 4 * tPeat * pages + tPeat * blocks, acc.2 || pages + blocks != 0)
      else (acc.1 + tPage * pages + tLine * at_ s.linesF s.linesP, acc.2))
    (tBase * at_ x.listsF x.listsP, false)

/-- M of every serving step (R162). -/
def Device.serveTerm (d : Device) (x : ServRec) : Nat :=
  (dramTerms d.dram.rate).1 * (x.pw + 4 * x.layers * x.kvPages) + x.mFix

/-- A new item of partition `p`; its due is yet to be found. -/
def Part.newItem (q : Part) (kind : ItemKind) (weave entry w m : Nat) (peat tight waitRaise : Bool) (ms : List Member) : Item :=
  ⟨kind, weave, entry, 0, q.nextSeq, stepsNs w q.pg + m, w, m, q.pg, tight, false, tight, peat, waitRaise, ms⟩

/-- X of an item (R24). -/
def Item.x (it : Item) : Nat := if it.tight then 0 else RESET_NS + it.c

/-- Demand items of a partition, at most (R27). -/
def maxItems : Nat := 1024

/-- A domain of the partition is below its promise pace (R242). -/
def Device.below (d : Device) (p : Nat) : Bool := (d.partDomains p).any fun i => decide ((d.dom i).pace < (d.part p).pg)

/-- A0 of a command of a partition: by the items outstanding when its check passed (R27); and the time of a raise where one
must come first (R242). -/
def Device.a0 (d : Device) (pk : Packet) (p : Nat) : Nat :=
  6000 + 20 * pk.held.get 0 p + (if d.below p then 1020000 else 0)

/-- The earliest due among the outstanding items (R27). -/
def Part.earliestOutstanding (q : Part) : Nat := ((q.allItems.map (·.d)).min?).getD 0

/-- The answer of the demand test to one new item: admitted with its due, or refused with the earliest due (R27–R29). Nothing
is admitted whose due does not fit, as where an item not yet past its due can no longer meet it. -/
def Device.place (d : Device) (now p : Nat) (it : Item) (req a0 floor : Nat) : Bool × Nat :=
  let l := d.load now p it.peat
  let early := l.earliestDue now it.test a0 floor
  if maxItems ≤ (d.part p).allItems.length then (false, (d.part p).earliestOutstanding)
  else if req = 0 then (l.fits now (some { it.test with d := early }) a0, early)
  else if floor ≤ req && l.fits now (some { it.test with d := req }) a0 then (true, req)
  else (false, early)

/-- An item enters its partition. -/
def Part.enqueue (q : Part) (it : Item) : Part := { q with items := q.items ++ [it], nextSeq := q.nextSeq + 1 }

/-- Work is refused in a partition: outside RUN, during a hand-over, a supply or thermal cause of R32, a transition that
waits (R33), PFAIL_N, or out of service (R31, R225, R243, R386). -/
def Device.workRefused (d : Device) (p : Nat) : Bool :=
  d.pwr.state != .run || d.pwr.handOver || d.pwr.trans.isSome || d.pwr.pfail.isSome || d.therm.degrade || d.supplyAlarm
    || (d.part p).oos || d.hub.resetting.isSome

/-- A work command has its answer: refused, asked only, or admitted with `f` done (R29, R221). -/
def Device.workAnswer (d : Device) (p : Packet) (ok : Bool) (due : Nat) (f : Device → Device) : Device :=
  if !ok then d.refuseLoad p.id due
  else if p.query then (d.freeTag p.id).accept p.id due
  else (f d).accept p.id due

/-- The domains of a partition are raised to its promise pace where one lies below it (R242). -/
def Device.promise (d : Device) (now p : Nat) : Device :=
  if d.below p then d.raiseTo now (d.partDomains p) (d.part p).pg else d

/-- FLAGS of a work command: TIGHT and QUERY_ONLY alone (R200, R221). -/
def Packet.workFlagsBad (p : Packet) : Bool := decide (3 < hdrFlags p.hdr)

/-! ### RUN (R243) -/

/-- RUN (R243). -/
def execRun (s : State) : Host.Outcome State Fault Refusal :=
  hostCmd 0x30 s fun now p d =>
    let h := p.w 2
    let entry := h.fld 47 32
    let args := (p.words.drop 3).take (p.len - 4)
    let own := p.workFlagsBad || decide (p.len < 4) || handleBad h || rsvBits h 63 48
    match d.weaveByHandle h with
    | none => d.answer now p.id (if own then stBadParam else stStaleGen) []
    | some w =>
      let part := w.bound.getD 16
      let e := w.entries[entry]?
      d.checked now p.id
        [(own || !(e.any fun e => e.kind == 0 && decide (args.length ≤ e.argWords)), stBadParam),
         (d.notServed 0x30 || w.bound.isNone || d.workRefused part, stRefusedState)]
        fun d =>
          let x := w.wcet.getD entry ⟨0, 0, 0, 0, []⟩
          let (m, peat) := d.memTerm w x 1
          let it := (d.part part).newItem .run (handleSlot h) entry (x.wF + x.wP) m peat p.tight (d.below part)
            [⟨p.id, p.tAdmit, 0, args, 0, 1, 0, false, false⟩]
          let (ok, due) := d.place now part it (p.w 1).toNat (d.a0 p part) 0
          d.workAnswer p ok due fun d =>
            (d.promise now part).modPart part fun q => q.enqueue { it with d := due }

/-! ### Streams (R126–R132, R247–R250) -/

/-- Cores that a stream takes. -/
def Stream.cores (x : Stream) : List Nat := rangeFrom x.firstCore (2 ^ x.width)

/-- First cores of the core sets of a class (R123), lowest first. -/
def ClassRec.firstCores (c : ClassRec) : List Nat :=
  ((List.range 64).filter fun f => f % 2 ^ c.width == 0).filter fun f =>
    (rangeFrom f (2 ^ c.width)).all fun k => bitOf c.bundles (bundleOf k)

/-- Open streams. -/
def Device.openStreams (d : Device) : List Stream := d.ten.streams.filterMap (·.2)

/-- The lowest free row of a class, and in it the lowest free core set (R128). -/
def Device.freeRow (d : Device) (weave : Nat) (c : ClassRec) : Option (Nat × Nat) :=
  let mine := d.openStreams.filter fun x => x.weave == weave
  (rangeFrom c.rowFirst (c.rowLast + 1 - c.rowFirst)).findSome? fun r =>
    let used := (mine.filter fun x => x.row == r).flatMap Stream.cores
    (c.firstCores.find? fun f => (rangeFrom f (2 ^ c.width)).all fun k => !used.contains k).map fun f => (r, f)

/-- The stream-table entry (R127). -/
def Stream.words (x : Stream) (id : Nat) : List Word :=
  [mkWord [(id, 0), (x.gen, 24), (x.row, 32), (x.firstCore, 44), (x.width, 50), (x.cls, 52), (1, 56), (b2n x.reset, 57),
    (b2n x.fresh, 58)], BitVec.ofNat 64 x.lastStep]

def reservedId : Nat := 0xFFFFFF

/-- STREAM_OPEN (R128, R247). -/
def execStreamOpen (s : State) : Host.Outcome State Fault Refusal :=
  hostCmd 0x40 s fun now p d =>
    let id := (p.w 2).fld 23 0
    let cls := (p.w 2).fld 27 24
    let h := p.w 3
    let own := p.bad 2 || rsvBits (p.w 2) 63 28 || handleBad h || rsvBits h 63 32 || id == reservedId
    let opened := (d.stream? id).isSome
    match d.weaveByHandle h with
    | none => d.answer now p.id (if own then stBadParam else stStaleGen) []
    | some w =>
      let c := w.classes[cls]?
      let place := c.bind (d.freeRow (handleSlot h))
      d.checked now p.id
        [(own || opened || c.isNone, stBadParam), (d.notServed 0x40 || w.bound.isNone || place.isNone, stRefusedState)]
        fun d =>
          let (row, first) := place.getD (0, 0)
          let x : Stream := ⟨d.ten.streamGen, row, first, (c.map (·.width)).getD 0, cls, false, true, 0, handleSlot h⟩
          let d := { d with ten := { d.ten with
            streams := d.ten.streams.set none id (some x), streamGen := (d.ten.streamGen + 1) % 256 } }
          d.answer now p.id stOk (x.words id)

/-- The weave, its partition and the class of a stream. -/
def Device.streamHome (d : Device) (x : Stream) : Option (Weave × Nat × ClassRec) :=
  (d.weave? x.weave).bind fun w => w.bound.bind fun p => (w.classes[x.cls]?).map fun c => (w, p, c)

/-- Items that hold an unanswered step of a stream. -/
def Part.stepsOf (q : Part) (id : Nat) : List Item :=
  q.allItems.filter fun it => match it.kind with
    | .cls _ _ => it.members.any fun m => m.key == id
    | _ => false

/-- STREAM_CLOSE (R129, R250). -/
def execStreamClose (s : State) : Host.Outcome State Fault Refusal :=
  hostCmd 0x42 s fun now p d =>
    let id := (p.w 2).fld 23 0
    let own := p.bad 1 || rsvBits (p.w 2) 63 32
    match d.stream? id with
    | none => d.answer now p.id stBadParam []
    | some x =>
      let busy := (List.range 16).any fun i => !((d.part i).stepsOf id).isEmpty
      d.checked now p.id
        [(own, stBadParam), (x.gen != (p.w 2).fld 31 24, stStaleGen), (d.notServed 0x42 || busy, stRefusedState)]
        fun d =>
          let d := { d with ten := { d.ten with streams := d.ten.streams.set none id none } }
          d.answer now p.id stOk (x.words id)

/-- A run that a step may join (R140). -/
def Item.joinable (it : Item) (kind : ItemKind) (weave : Nat) (tight : Bool) (bMax id req : Nat) (steps : List Item) : Bool :=
  it.kind == kind && it.weave == weave && it.tight == tight && !it.spent && decide (it.members.length < bMax)
    && !(it.members.any fun m => m.key == id)
    && steps.all (fun j => j.before it) && (req == 0 || decide (it.d ≤ req))

/-- The run that a step joins: the latest due, the latest admitted among equal dues (R140). -/
def latestItem (l : List Item) : Option Item :=
  l.foldl (fun best it => match best with
    | none => some it
    | some b => if b.before it then some it else some b) none

/-- The step of a stream, joining a run or forming one (R129, R140). -/
def Device.streamWork (d : Device) (now : Nat) (p : Packet) (id top : Nat) (decision : Bool) (x : Stream) (w : Weave)
    (part : Nat) (c : ClassRec) : Device :=
  let q := d.part part
  let steps := q.stepsOf id
  let req := (p.w 1).toNat
  let kind := ItemKind.cls x.cls decision
  let m : Member := ⟨p.id, p.tAdmit, id, p.body, top, 1, 0, false, false⟩
  match latestItem (q.items.filter fun it => it.joinable kind x.weave p.tight c.bMax id req steps) with
  | some it =>
    d.workAnswer p true it.d fun d =>
      d.modPart part fun q => { q with items := q.items.map fun j =>
        if j.seq = it.seq then { j with members := j.members ++ [m] } else j }
  | none =>
    let entry := if decision then c.decEntry else c.stepEntry
    let z := w.wcet.getD entry ⟨0, 0, 0, 0, []⟩
    let (mem, peat) := d.memTerm w z c.bMax
    let it := q.newItem kind x.weave entry (z.wF + z.wP * c.bMax) mem peat p.tight (d.below part) [m]
    let floor := ((steps.map (·.d)).max?).getD 0
    let (ok, due) := d.place now part it req (d.a0 p part) floor
    d.workAnswer p ok due fun d =>
      (d.promise now part).modPart part fun q => q.enqueue { it with d := due }

/-- STREAM_STEP (R248). -/
def execStreamStep (s : State) : Host.Outcome State Fault Refusal :=
  hostCmd 0x41 s fun now p d =>
    let h := p.w 2
    let n := h.fld 47 32
    let own := p.workFlagsBad || rsvBits h 63 48 || p.len != 4 + n
    match d.stream? (h.fld 23 0) with
    | none => d.answer now p.id stBadParam []
    | some x =>
      let home := d.streamHome x
      d.checked now p.id
        [(own, stBadParam), (x.gen != h.fld 31 24, stStaleGen),
         (home.any fun y => decide (y.2.2.stepWords < n), stBadParam),
         (d.notServed 0x41 || home.isNone || home.any fun y => d.workRefused y.2.1, stRefusedState)]
        fun d => match home with
          | none => d
          | some (w, part, c) => d.streamWork now p (h.fld 23 0) 0 false x w part c

/-- The words of a decision record (R137). -/
def decisionWords (feats keys : Nat) : Nat := 2 + feats + cdiv keys 2

/-- DECIDE (R137, R246). -/
def execDecide (s : State) : Host.Outcome State Fault Refusal :=
  hostCmd 0x38 s fun now p d =>
    let h := p.w 2
    let k := p.w 3
    let keys := k.fld 7 0
    let feats := k.fld 13 8
    let top := k.fld 17 14
    let own := p.workFlagsBad || decide (p.len < 5) || rsvBits h 63 32 || rsvBits k 63 18 || top == 0 || decide (8 < top)
      || p.len != 3 + decisionWords feats keys || (keys % 2 == 1 && rsvBits (p.w (p.len - 2)) 63 32)
    match d.stream? (h.fld 23 0) with
    | none => d.answer now p.id stBadParam []
    | some x =>
      let home := d.streamHome x
      d.checked now p.id
        [(own, stBadParam), (x.gen != h.fld 31 24, stStaleGen),
         (home.any fun y => !y.2.2.decision || decide (y.2.2.gMax < keys) || y.2.2.feats != feats, stBadParam),
         (d.notServed 0x38 || home.isNone || home.any fun y => d.workRefused y.2.1, stRefusedState)]
        fun d => match home with
          | none => d
          | some (w, part, c) => d.streamWork now p (h.fld 23 0) top true x w part c

/-! ### Sequences (R144–R150, R251–R254) -/

def seqSlots : Nat := 256
/-- Tokens of a token page (R157). -/
def pageTokens : Nat := 256

/-- The slot of an open sequence. -/
def Device.seqSlot (d : Device) (id : Nat) : Option Nat :=
  (List.range seqSlots).find? fun i => (d.seq i).phase != 0 && (d.seq i).id == id

/-- Frames of a half's pool that no sequence has reserved. -/
def Device.unreservedFrames (d : Device) (x : ServRec) (h : Bool) : Nat :=
  x.frames - ((List.range seqSlots).map fun i =>
    let q := d.seq i
    if q.phase != 0 && q.half == h then q.reserved else 0).sum

/-- The sequence-table entry (R146). -/
def Seqn.words (q : Seqn) : List Word :=
  [mkWord [(q.id, 0), (q.gen, 24), (q.phase, 32), (b2n q.half, 34), (b2n q.pending, 35), (b2n q.lost, 36), (q.length, 37)],
    mkWord [(q.promptLeft, 0), (q.genLeft, 18), (q.lastToken, 32)], mkWord [(q.stop, 0), (q.feedOrder % 2 ^ 32, 32)],
    BitVec.ofNat 64 q.lastStep]

/-- SEQ_OPEN (R147, R251). -/
def execSeqOpen (s : State) : Host.Outcome State Fault Refusal :=
  hostCmd 0x48 s fun now p d =>
    let id := (p.w 2).fld 23 0
    let own := p.bad 1 || rsvBits (p.w 2) 63 24 || id == reservedId || (d.seqSlot id).isSome
    let free := (List.range seqSlots).find? fun i => (d.seq i).phase == 0
    let sv := d.servingWeave.bind (·.2.serving)
    d.checked now p.id [(own, stBadParam), (d.notServed 0x48 || sv.isNone || free.isNone, stRefusedState)]
      fun d => match sv with
        | none => d
        | some x =>
          let q : Seqn := { id := id, gen := d.ten.seqGen, phase := 1
                            half := decide (d.unreservedFrames x false < d.unreservedFrames x true) }
          let d := d.setSeq (free.getD 0) q
          let d := { d with ten := { d.ten with seqGen := (d.ten.seqGen + 1) % 256 } }
          d.answer now p.id stOk q.words

/-- VALID clears in the entries of a page table: byte 3 of each (R147, R157). -/
def clearValid (pool : SMap Byte) (at_ : Nat) : SMap Byte :=
  (List.range 512).foldl (fun m i => m.modify 0 (at_ + 4 * i + 3) fun b => b &&& 0x7F) pool

/-- SEQ_CLOSE (R147, R254). -/
def execSeqClose (s : State) : Host.Outcome State Fault Refusal :=
  hostCmd 0x4A s fun now p d =>
    let own := p.bad 1 || rsvBits (p.w 2) 63 32
    match d.seqSlot ((p.w 2).fld 23 0) with
    | none => d.answer now p.id stBadParam []
    | some slot =>
      let q := d.seq slot
      d.checked now p.id
        [(own, stBadParam), (q.gen != (p.w 2).fld 31 24, stStaleGen), (d.notServed 0x4A || q.phase == 2, stRefusedState)]
        fun d =>
          let d := match d.servingWeave with
            | some (_, w) => match w.serving with
              | some x => d.modCore w.control fun k => { k with pool := clearValid k.pool (x.tableBase + slot * 2048) }
              | none => d
            | none => d
          (d.setSeq slot {}).answer now p.id stOk [BitVec.ofNat 64 q.reserved]

/-- One step of a feed: its tokens, KV pages, and whether it samples (R148). -/
structure FeedStep where
  count : Nat
  kv : Nat
  sample : Bool
  deriving DecidableEq, Repr

/-- KV pages of a step at a position (R148). -/
def kvPagesOf (pos count : Nat) : Nat := 2 * cdiv (pos + count) pageTokens - pos / pageTokens

/-- The steps of a feed from position `pos`: chunks of the prompt, then one token each (R148). -/
def feedSteps (pos chunk prompt gen : Nat) : List FeedStep :=
  let n := cdiv prompt chunk
  let pre := (List.range n).map fun i =>
    let c := min chunk (prompt - i * chunk)
    (⟨c, kvPagesOf (pos + i * chunk) c, decide (i + 1 = n) && decide (1 ≤ gen)⟩ : FeedStep)
  pre ++ (List.range (gen - 1)).map fun i => ⟨1, kvPagesOf (pos + prompt + i) 1, true⟩

/-- A step item that a step of a feed may join (R149). -/
def Item.takes (it : Item) (weave : Nat) (x : ServRec) (tight : Bool) (f : FeedStep) : Bool :=
  it.kind == .serve && it.weave == weave && it.tight == tight && !it.spent && decide (it.members.length < seqSlots)
    && decide ((it.members.map (·.count)).sum + f.count ≤ x.budget) && decide ((it.members.map (·.kv)).sum + f.kv ≤ x.kvPages)

/-- Where the steps of a feed join: the admission number of the item for each step in turn; the steps left over (R149). -/
def joinSteps (weave : Nat) (x : ServRec) (tight : Bool) : List Item → List FeedStep → List Nat × List FeedStep
  | _, [] => ([], [])
  | [], fs => ([], fs)
  | it :: its, f :: fs =>
    if it.takes weave x tight f then
      let (js, r) := joinSteps weave x tight its fs
      (it.seq :: js, r)
    else joinSteps weave x tight its (f :: fs)

/-- A feed being placed: the device with the items formed so far, whether every one was admitted, the due of the item that
holds the last step placed. -/
structure Placing where
  dev : Device
  ok : Bool
  due : Nat

/-- New items for the steps that no item takes, one at a time (R149, R150). -/
def formItems (now part req a0 : Nat) (mk : Device → FeedStep → Item) : Placing → List FeedStep → Placing
  | x, [] => x
  | x, f :: fs =>
    if !x.ok then x
    else
      let it := mk x.dev f
      let (ok, due) := x.dev.place now part it (if fs.isEmpty then req else 0) a0 x.due
      if ok then formItems now part req a0 mk ⟨x.dev.modPart part fun q => q.enqueue { it with d := due }, true, due⟩ fs
      else { x with ok := false, due := due }

/-- A feed is placed, answered, and kept unless it was only asked (R148–R150). -/
def Device.feedWork (d : Device) (now : Nat) (p : Packet) (slot part weave : Nat) (w : Weave) (x : ServRec) (gen : Nat)
    (stop : Nat) (prompt : List Nat) : Device :=
  let q := d.seq slot
  let total := prompt.length + b2n q.pending
  let steps := feedSteps q.length x.chunk total gen
  let req := (p.w 1).toNat
  let a0 := d.a0 p part
  let raise_ := d.below part
  let member (f : FeedStep) : Member := ⟨p.id, p.tAdmit, slot, [], 0, f.count, f.kv, f.sample, false⟩
  let sorted := (d.part part).items.foldl (fun l i => insertItem i l) []
  let (joined, rest) := joinSteps weave x p.tight sorted steps
  let pairs := joined.zip steps
  let join (it : Item) : Item := match pairs.find? fun y => y.1 == it.seq with
    | some y => { it with members := it.members ++ [member y.2] }
    | none => it
  let e := d.modPart part fun q => { q with items := q.items.map join }
  let dueOf (s : Nat) : Nat := (((d.part part).items.find? fun it => it.seq == s).map (·.d)).getD 0
  let last := (joined.getLast?.map dueOf).getD 0
  let z := w.wcet.getD x.entry ⟨0, 0, 0, 0, []⟩
  let mk (e : Device) (f : FeedStep) : Item :=
    (e.part part).newItem .serve weave x.entry z.wF (e.serveTerm x) false p.tight raise_ [member f]
  let r : Placing := if rest.isEmpty then ⟨e, req == 0 || decide (last ≤ req), last⟩
    else if maxItems < (d.part part).allItems.length + rest.length then ⟨e, false, (d.part part).earliestOutstanding⟩
    else formItems now part req a0 mk ⟨e, true, last⟩ rest
  if !r.ok || p.query then d.workAnswer p r.ok r.due id
  else
    let e := if rest.isEmpty then r.dev else r.dev.promise now part
    let order := e.ten.feedOrder + 1
    let frames := cdiv (q.length + total + gen) pageTokens
    let e := e.setSeq slot { q with
      phase := 2, promptLeft := total, genLeft := gen, stop := stop, feedOrder := order, feed := some p.id, prompt := prompt
      tokens := [], cancelled := false, reserved := max q.reserved frames, due := r.due }
    { e with ten := { e.ten with feedOrder := order } }.accept p.id r.due

/-- SEQ_FEED (R148–R150, R252). -/
def execSeqFeed (s : State) : Host.Outcome State Fault Refusal :=
  hostCmd 0x49 s fun now p d =>
    let h := p.w 2
    let k := p.w 3
    let n := k.fld 17 0
    let gen := k.fld 27 18
    let own := p.workFlagsBad || decide (p.len < 5) || rsvBits h 63 32 || rsvBits k 31 28 || decide (512 < gen) || n + gen == 0
      || p.len != 5 + cdiv n 2 || (n % 2 == 1 && rsvBits (p.w (p.len - 2)) 63 32)
    match d.seqSlot (h.fld 23 0) with
    | none => d.answer now p.id stBadParam []
    | some slot =>
      let q := d.seq slot
      let sw := d.servingWeave
      let sv := sw.bind fun e => e.2.serving
      let total := n + b2n q.pending
      let steps := (sv.map fun x => feedSteps q.length x.chunk total gen).getD []
      let part := (sw.bind fun e => e.2.bound).getD 16
      let need := cdiv (q.length + total + gen) pageTokens - q.reserved
      d.checked now p.id
        [(own, stBadParam), (q.gen != h.fld 31 24, stStaleGen),
         (total == 0 || sv.any fun x => decide (x.ctxMax < q.length + total + gen) || steps.any fun f => decide (x.kvPages < f.kv),
           stBadParam),
         (d.notServed 0x49 || q.phase != 1 || q.lost || sv.isNone || (sv.any fun x => decide (d.unreservedFrames x q.half < need))
            || d.workRefused part, stRefusedState)]
        fun d => match sw, sv with
          | some (slotW, w), some x =>
            d.feedWork now p slot part slotW w x gen (k.fld 63 32)
              ((List.range n).map fun i => half32 (p.words.drop 4) i)
          | _, _ => d

/-! ### QUERY_DUE and CANCEL (R244, R245) -/

/-- A command of a context by tag and generation is unanswered. -/
def Device.outstanding (d : Device) (ctx tag gen : Nat) : Bool :=
  let t := d.port.tags.get {} (tagKey ctx tag)
  t.busy && t.gen == gen

/-- A member is of the command. -/
def Member.of (m : Member) (ctx tag gen : Nat) : Bool := m.id.ctx == ctx && m.id.tag == tag && m.id.gen == gen
def Item.holds (it : Item) (ctx tag gen : Nat) : Bool := it.members.any fun m => m.of ctx tag gen

/-- The partition that holds an outstanding work command. -/
def Device.workPart (d : Device) (ctx tag gen : Nat) : Option Nat :=
  (List.range 16).find? fun p => (d.part p).allItems.any fun it => it.holds ctx tag gen

/-- QUERY_DUE (R244). A feed reports the due of the item of its last step. -/
def execQueryDue (s : State) : Host.Outcome State Fault Refusal :=
  hostCmd 0x31 s fun now p d =>
    let tag := (p.w 2).fld 11 0
    let gen := (p.w 2).fld 15 12
    let ctx := p.id.ctx
    d.checked now p.id [(p.bad 1 || rsvBits (p.w 2) 63 16, stBadParam)] fun d =>
      if !d.outstanding ctx tag gen then d.answer now p.id stOk [0, 0]
      else match d.workPart ctx tag gen with
        | none => d.answer now p.id stOk [3, 0]
        | some n =>
          let q := d.part n
          let mine := q.allItems.filter fun it => it.holds ctx tag gen
          let runs := q.running.any fun r => r.item.holds ctx tag gen
          match latestItem mine with
          | none => d.answer now p.id stOk [3, 0]
          | some it => d.answer now p.id stOk
              [mkWord [(if runs then 2 else 1, 0), (b2n it.exposed, 2), (b2n it.tight, 3), (n, 8)], BitVec.ofNat 64 it.d]

/-- The result word of a cancelled command. -/
def cancelledWord : Word := mkWord [(1, 63)]

/-- A command leaves the queued items of its partition; a run left without members goes (R245). -/
def Part.withdraw (q : Part) (ctx tag gen : Nat) : Part :=
  let left := q.items.map fun it => { it with members := it.members.filter fun m => !m.of ctx tag gen }
  { q with items := left.filter fun it => !it.members.isEmpty }

/-- A queued work command is withdrawn, with its final reply (R245). -/
def Device.withdrawn (d : Device) (now n : Nat) (it : Item) (m : Member) : Device :=
  if it.kind = .serve then d.endFeed now n m.key stRefusedState true
  else (d.modPart n fun q => q.withdraw m.id.ctx m.id.tag m.id.gen).answer now m.id stRefusedState [cancelledWord]

/-- CANCEL (R245). -/
def execCancel (s : State) : Host.Outcome State Fault Refusal :=
  hostCmd 0x32 s fun now p d =>
    let tag := (p.w 2).fld 11 0
    let gen := (p.w 2).fld 15 12
    let ctx := p.id.ctx
    d.checked now p.id [(p.bad 1 || rsvBits (p.w 2) 63 16, stBadParam)] fun d =>
      if !d.outstanding ctx tag gen then d.answer now p.id stOk [0]
      else match d.workPart ctx tag gen with
        | none => d.answer now p.id stOk [3]
        | some n =>
          let q := d.part n
          let runs := (q.running.map (·.item)).filter fun it => it.holds ctx tag gen
          match runs with
          | some it =>
            let d := if it.kind = .serve then
                forEach d (it.members.filter fun m => m.of ctx tag gen) fun d m =>
                  (d.setSeq m.key { d.seq m.key with cancelled := true }).modPart n fun q =>
                    { q with items := withdrawFeed q.items m.key }
              else d
            d.answer now p.id stOk [2]
          | none =>
            let hit := q.items.findSome? fun it => (it.members.find? fun m => m.of ctx tag gen).map fun m => (it, m)
            match hit with
            | none => d.answer now p.id stOk [3]
            | some (it, m) => (d.withdrawn now n it m).answer now p.id stOk [1]

end Sys2Proof.Machine
end

