-- ==== Sys2Proof/Machine/Items.lean ====
section
/-! DEFINITION. Demand items as they run: dispatch, completion, the commit of streams and sequences, the watchdog and the
program windows (R30–R37, R51, R77–R79, R131–R153, R161, R178, R242, R394). -/

namespace Sys2Proof.Machine

/-! ### Dispatch (R77) -/

/-- A core at dispatch: DISPATCH_GEN, ENTRY, DEADLINE and CONTROL (R52, R77). -/
def Core.atDispatch (k : Core) (entry deadline : Nat) (control : Bool) : Core :=
  { k with gen := (k.gen + 1) % 256, entry := entry, deadline := deadline, control := control, part := false, result := (0, 0)
           run := if k.run = .faulted then .faulted else .halted }

/-- A participating core starts at `pc` with g1 to g4 set and its other registers as R51 gives. -/
def Core.start (k : Core) (pc entry arg batch len : Nat) (sched : Sched) : Core :=
  { k with
    g := SMap.setList 0 [] 1 [BitVec.ofNat 32 entry, BitVec.ofNat 32 arg, BitVec.ofNat 32 batch, BitVec.ofNat 32 len]
    d := Core.init.d, p := [], v := [], pc := pc, run := .running, part := true, sched := sched }

/-- Start offset of an entry on a core: none where the core takes no part (R312). -/
def Core.startOffset (k : Core) (x : Section_) (entry : Nat) : Option Nat :=
  let o := k.pool.rdLe (x.entryTab + 4 * entry) 4
  if o = 0xFFFFFFFF then none else some o

/-- Argument words of a RUN: its own. Of a class run: the run header and one member block a step (R138). -/
def Device.classArgs (d : Device) (cls : Nat) (decision : Bool) (ms : List Member) : List Word :=
  mkWord [(ms.length, 0), (cls, 16), (b2n decision, 20)] :: ms.flatMap fun m =>
    let x : Stream := (d.stream? m.key).getD ⟨0, 0, 0, 0, 0, false, false, 0, 0⟩
    mkWord [(x.row, 0), (x.firstCore, 12), (x.width, 18), (b2n x.fresh, 20), (b2n x.reset, 21), (m.data.length, 32)] :: m.data

/-- A member of a step consumes no prompt token (R152). -/
def Seqn.decodes (q : Seqn) (count : Nat) : Bool := q.promptLeft == 0 || count == b2n q.pending

/-- The members of a step in the order of its work list (R152). -/
def Device.workOrder (d : Device) (ms : List Member) : List Member :=
  let dec := ms.filter fun m => (d.seq m.key).decodes m.count
  let pre := ms.filter fun m => !(d.seq m.key).decodes m.count
  dec.mergeSort (fun a b => decide (a.key ≤ b.key))
    ++ pre.mergeSort (fun a b => decide ((d.seq a.key).feedOrder ≤ (d.seq b.key).feedOrder))

/-- Tokens that a member consumes: the pending token ahead of the prompt, or the token sampled last. -/
def Seqn.consumes (q : Seqn) (count : Nat) : List Nat :=
  if q.promptLeft = 0 then [q.lastToken] else (((if q.pending then [q.lastToken] else []) ++ q.prompt).take count)

/-- The work list of a step (R152). -/
def Device.stepArgs (d : Device) (ms : List Member) : List Word :=
  let head := mkWord [(ms.length, 0), ((ms.map (·.count)).sum, 16)]
  let one (m : Member) : Word :=
    let q := d.seq m.key
    mkWord [(m.key, 0), (b2n m.sample, 8), (b2n q.half, 9), (q.length, 10), (m.count, 28)]
  head :: ms.map one ++ packWords (ms.flatMap fun m => (d.seq m.key).consumes m.count)

/-- Frames that a sequence holds. -/
def Seqn.held (q : Seqn) : List Nat := q.frames.filterMap (·.2)

/-- The lowest frame of a half's pool that no sequence holds. -/
def Device.lowestFrame (d : Device) (x : ServRec) (h : Bool) : Nat :=
  let used := (List.range seqSlots).flatMap fun i => let q := d.seq i; if q.phase != 0 && q.half == h then q.held else []
  ((List.range x.frames).find? fun f => !used.contains f).getD 0

/-- The page-table entry of token page `i` of a slot is written (R157). -/
def Device.writeEntry (d : Device) (w : Weave) (x : ServRec) (slot i frame : Nat) : Device :=
  d.modCore w.control fun k => { k with pool := k.pool.wrLe (x.tableBase + slot * 2048 + 4 * i) 4 (frame + 2 ^ 31) }

/-- Wherever the positions of a step enter a token page whose entry is not VALID, the slot is given a frame (R152). -/
def Device.assignFrames (d : Device) (w : Weave) (x : ServRec) (slot pos count : Nat) : Device :=
  let first := pos / pageTokens
  forEach d (rangeFrom first (cdiv (pos + count) pageTokens - first)) fun d i =>
    if entryValid (d.tableEntry w x slot i) then d
    else
      let q := d.seq slot
      let q := { q with frames := q.frames.set none i none }
      let f := (d.setSeq slot q).lowestFrame x q.half
      (d.setSeq slot { q with frames := q.frames.set none i (some f) }).writeEntry w x slot i f

/-- The members' frames are assigned before the argument area is written (R152). -/
def Device.assignAll (d : Device) (w : Weave) (ms : List Member) : Device :=
  match w.serving with
  | none => d
  | some x => forEach d ms fun d m => d.assignFrames w x m.key (d.seq m.key).length m.count

/-- An item starts: argument area, dispatch generation, registers, schedules, cores (R77, R178). -/
def Device.startItem (d : Device) (now p : Nat) (it : Item) (w : Weave) : Device :=
  let e := w.entries.getD it.entry ⟨0, 0, 0, 0, 0, []⟩
  let ms := match it.kind with | .serve => d.workOrder it.members | _ => it.members
  let it := { it with members := ms }
  let d := match it.kind with | .serve => d.assignAll w ms | _ => d
  let args := match it.kind with
    | .run => ms.flatMap Member.data
    | .cls c dec => d.classArgs c dec ms
    | .serve => d.stepArgs ms
  let batch := match it.kind with | .run => 1 | _ => ms.length
  let put := wordsBytes (args.take ((poolBytes - e.argOff) / 8))
  let d := d.modCore w.control fun k => { k with pool := k.pool.setList 0 e.argOff put }
  let deadline := lstOf now (it.d - it.x)
  let d := forEach d (d.part p).cores fun d c => d.modCore c fun k => k.atDispatch it.entry deadline (c == w.control)
  let d := forEach d (w.sections.zipIdx) fun d x =>
    match (d.core x.1.core).startOffset x.1 it.entry with
    | none => d
    | some pc =>
      let sc := e.scheds.getD x.2 (0, 0, 0)
      let d := d.setLknot x.1.core sc.2.2 { d.lknot x.1.core sc.2.2 with count := 0 }
      d.modCore x.1.core fun k => k.start pc it.entry (if x.1.core = w.control then e.argOff else 0) batch args.length
        ⟨sc.1, sc.2.1, sc.2.2, 0⟩
  let met := d.therm.degrade || d.supplyAlarm
  d.modPart p fun q => { q with
    items := q.items.filter (fun j => j.seq ≠ it.seq)
    running := some ⟨it, now, met, d.lowest (d.partDomains p)⟩ }

/-- The first item in the order of R28. -/
def firstItem (l : List Item) : Option Item :=
  l.foldl (fun best it => match best with
    | none => some it
    | some b => if it.before b then some it else some b) none

/-- A program window is open, and the partition holds an item whose M counts a peat read (R37). -/
def Device.windowHolds (d : Device) (p : Nat) : Bool :=
  (d.part p).allItems.any (·.peat)
    && (List.range 4).any fun c => match d.peat.windows.get .none c with | .opened _ => true | _ => false

/-- Ubtur dispatches items in a partition: in RUN, no transition under way, no PFAIL_N, nothing running, no reset. -/
def Device.dispatches (d : Device) (p : Nat) : Bool :=
  d.ready && d.pwr.state == .run && !(d.pwr.trans.any fun t => t.started.isSome) && d.pwr.pfail.isNone && !d.hub.oos
    && d.hub.resetting.isNone && !d.therm.tripped
    && !(d.part p).oos && (d.part p).running.isNone && (d.part p).reset.isNone && !d.windowHolds p

/-- ITEM_DISPATCH: the item of earliest due starts (R28, R77). One whose raise is not yet in force waits (R242). Members of
a lost sequence are left out, and their feeds answered FAULTED (R161). -/
def execItemDispatch (p : PartId) (s : State) : Host.Outcome State Fault Refusal :=
  s.act fun now d =>
    let n := p.toNat
    if !d.dispatches n then d
    else match firstItem (d.part n).items with
      | none => d
      | some it =>
        let lost := if it.kind = .serve then it.members.filter fun m => (d.seq m.key).lost else []
        if !lost.isEmpty then forEach d lost fun d m => d.endFeed now n m.key stFaulted false
        else if it.waitRaise && d.below n then d
        else match d.weave? it.weave with
          | none => d
          | some w => d.startItem now n it w

/-! ### Completion (R78) -/

/-- Every participating core of the partition has halted. -/
def Device.allHalted (d : Device) (p : Nat) : Bool :=
  (d.part p).cores.all fun c => let k := d.core c; !k.part || k.run == .halted

/-- The result block that HALT named on the control core. -/
def Core.resultBlock (k : Core) : List Word := bytesWords k.result.2 (k.pool.getList 0 k.result.1 (8 * k.result.2))

/-- Result words of each member of a class run, header first; none where the block does not fit its members (R139, R249). -/
def splitResults (decision : Bool) (limit : Nat) : List Member → List Word → Option (List (Member × List Word))
  | [], [] => some []
  | [], _ :: _ => none
  | _ :: _, [] => none
  | m :: ms, h :: ws =>
    let n := if decision then h.fld 7 0 else h.fld 15 0
    if (if decision then m.top else limit) < n || ws.length < n then none
    else (splitResults decision limit ms (ws.drop n)).map fun r => (m, h :: ws.take n) :: r

/-- The reply of a stream step (R132): LATE, STATE_RESET or OK; RESET clears with STATE_RESET. -/
def Device.streamReply (d : Device) (now : Nat) (late : Bool) (m : Member) (rs : List Word) : Device :=
  let lost := (d.stream? m.key).any (·.reset)
  let st := if late then stLate else if lost then stStateReset else stOk
  let d := d.modStream m.key fun x => { x with fresh := false, lastStep := now, reset := x.reset && late }
  d.answer now m.id st rs

/-- A member's step is committed (R151): the token it sampled, if it sampled one. -/
def Seqn.commit (q : Seqn) (now : Nat) (m : Member) (token : Nat) : Seqn :=
  let pend := b2n (q.pending && q.promptLeft != 0)
  let q := { q with
    length := q.length + m.count, lastStep := now, pending := false
    promptLeft := q.promptLeft - (if q.promptLeft = 0 then 0 else m.count)
    prompt := if q.promptLeft = 0 then q.prompt else q.prompt.drop (m.count - pend) }
  if m.sample then
    { q with lastToken := token, tokens := q.tokens ++ [token], genLeft := q.genLeft - 1, pending := true }
  else q

/-- The feed ends with this step (R151). -/
def Seqn.feedOver (q : Seqn) (m : Member) : Bool :=
  (q.genLeft == 0 && q.promptLeft == 0) || (m.sample && q.stop != 0xFFFFFFFF && q.lastToken == q.stop)

/-- Every member's step is committed, in member order (R151). -/
def Device.commitSteps (d : Device) (now : Nat) : List Member → List Word → Device
  | [], _ => d
  | m :: ms, rs =>
    let d := d.setSeq m.key ((d.seq m.key).commit now m (rs.headD 0).toNat)
    d.commitSteps now ms (if m.sample then rs.drop 1 else rs)

/-- A serving step completes (R151): commits first, then the replies of the feeds that end, LATE by the feed's own due (R32,
R150); a cancelled feed ends too. -/
def Device.completeStep (d : Device) (now p : Nat) (it : Item) (block : List Word) : Device :=
  let d := d.commitSteps now it.members (block.map fun w => w &&& 0xFFFFFFFF)
  forEach d it.members fun d m =>
    let q := d.seq m.key
    if q.feedOver m then d.endFeed now p m.key (if q.due < now then stLate else stOk) false
    else if q.cancelled then d.endFeed now p m.key stRefusedState true
    else d

/-- ITEM_COMPLETE: the steward reads the result block into the replies (R78), or the block does not fit (RESULT_FORMAT). -/
def execItemComplete (p : PartId) (s : State) : Host.Outcome State Fault Refusal :=
  s.act fun now d =>
    let n := p.toNat
    match (d.part n).running with
    | none => d
    | some r =>
      if !d.allHalted n || (d.part n).reset.isSome || !d.ready then d
      else match d.weave? r.item.weave with
        | none => d
        | some w =>
          let it := r.item
          let block := (d.core w.control).resultBlock
          let bad := d.partFault now n fcResultFormat none 0 block.length it.entry false true
          let late := decide (it.d < now)
          let done := d.modPart n fun q => { q with running := none, itemsDone := q.itemsDone.bump now 1 }
          match it.kind with
          | .run => forEach done it.members fun d m => d.answer now m.id (if late then stLate else stOk) block
          | .cls c dec =>
            match splitResults dec ((w.classes[c]?.map (·.resWords)).getD 0) it.members block with
            | none => bad
            | some rs => forEach done rs fun d x => d.streamReply now late x.1 x.2
          | .serve =>
            if block.length ≠ (it.members.filter (·.sample)).length then bad else done.completeStep now n it block

/-! ### The watchdog (R394) -/

/-- The limit of a running item: c at the lowest pace in force since its dispatch. -/
def Running.limit (r : Running) : Nat := r.at_ + stepsNs r.item.w r.pmin + r.item.m

/-- WATCHDOG_EXPIRE: the running item has not completed by its limit. -/
def execWatchdogExpire (p : PartId) (s : State) : Host.Outcome State Fault Refusal :=
  s.act fun now d =>
    match (d.part p.toNat).running with
    | none => d
    | some r =>
      if r.limit ≤ now && !(d.part p.toNat).reset.isSome then
        d.partFault now p.toNat fcWatchdog none 0 r.limit r.item.entry false true
      else d

/-! ### Program windows (R37) -/

/-- Every partition that holds an item whose M counts a peat read runs none and fits as it stands, the windows in place. -/
def Device.windowFits (d : Device) (now : Nat) : Bool :=
  (List.range 16).all fun p =>
    let q := d.part p
    !q.allItems.any (·.peat) || (q.running.isNone && q.reset.isNone && (d.load now p true).fits now none 0)

/-- PROGRAM_WINDOW_ENTER: a program or erase has waited 10 ms, and the channel's previous window started 40 ms ago or
earlier. -/
def execProgramWindowEnter (ch : FlashCh) (s : State) : Host.Outcome State Fault Refusal :=
  s.act fun now d =>
    let c := ch.toNat
    let waited := (d.peat.queue.get [] c).any fun o => decide (o.since + 10000000 ≤ now)
    let free := match d.peat.lastWindow.get none c with | none => true | some t => decide (t + 40000000 ≤ now)
    if d.flashOn && d.ready && waited && free && d.peat.windows.get .none c == .none then
      d.modPeat fun p => { p with windows := p.windows.set .none c (.pending now) }
    else d

/-- PROGRAM_WINDOW_OPEN: the demand tests hold with the window in place. -/
def execProgramWindowOpen (ch : FlashCh) (s : State) : Host.Outcome State Fault Refusal :=
  s.act fun now d =>
    let c := ch.toNat
    match d.peat.windows.get .none c with
    | .pending _ =>
      if d.flashOn && d.windowFits now then
        d.modPeat fun p => { p with windows := p.windows.set .none c (.opened now), lastWindow := p.lastWindow.set none c (some now) }
      else d
    | _ => d

/-- An erase under way on a channel is ended by RESET, to be repeated (R37, R301). -/
def Peat.stopErase (p : Peat) (c : Nat) : Peat :=
  match p.busy.get none c with
  | none => p
  | some op =>
    if op.kind = .erase then
      { p.modBlock (physKey op.phys) (fun b => { b with interrupted := true }) with
        busy := p.busy.set none c none, queue := p.queue.modify [] c fun q => op :: q }
    else p

/-- PROGRAM_WINDOW_CLOSE: 12 ms after its opening. -/
def execProgramWindowClose (ch : FlashCh) (s : State) : Host.Outcome State Fault Refusal :=
  s.act fun now d =>
    let c := ch.toNat
    match d.peat.windows.get .none c with
    | .opened t =>
      if t + windowNs ≤ now then
        d.modPeat fun p => { p with windows := p.windows.set .none c .none }.stopErase c
      else d
    | _ => d

end Sys2Proof.Machine
end

