-- ==== Sys2Proof/Machine/Tenant.lean ====
section
/-! DEFINITION. General commands, tenancy, contexts, keys and entropy (R227–R233, R422–R442). -/

namespace Sys2Proof.Machine

/-! ### General (R227–R230) -/

/-- ECHO (R227). -/
def execEcho (s : State) : Host.Outcome State Fault Refusal :=
  hostCmd 0x00 s fun now p d =>
    d.checked now p.id [(p.badFlags || decide (1027 < p.len), stBadParam)] fun d => d.answer now p.id stOk p.body

/-- x then y of the device identity public key, 48 bytes each, most significant byte first (R228, R432). -/
def identityPublic : List Word :=
  let (x, y) := (ecMul Config.identityKey (some p384G)).getD (0, 0)
  bytesWords 12 (beBytes 48 x ++ beBytes 48 y)

/-- IDENTIFY (R228). -/
def execIdentify (s : State) : Host.Outcome State Fault Refusal :=
  hostCmd 0x01 s fun now p d =>
    d.checked now p.id [(p.bad 0, stBadParam)] fun d =>
      d.answer now p.id stOk ([devIdWord, Config.versions.zeroExtend 64, Config.serial] ++ identityPublic)

/-- Readings are coarsened for every context but in CLOSED (R430). -/
def Device.coarse (d : Device) : Bool := d.ten.state != .closed

/-- The count held at the latest multiple of 1 ms at or before `now`. -/
def Ctr.held (t : Ctr) (now : Nat) : Nat := if t.n ≠ 0 && t.ms == now / 1000000 then t.snap else t.n

/-- A SELECT 1 counter as it is read (R430). -/
def Device.ctrRead (d : Device) (now : Nat) (t : Ctr) : Word :=
  BitVec.ofNat 64 (if d.coarse then t.held now / 1024 * 1024 else t.n)

/-- A temperature field, 1/16 °C, signed 16 bits; coarsened to a whole °C towards minus infinity. -/
def tjField (coarse : Bool) (t : Int) : Nat := ((if coarse then t / 16 * 16 else t) % 65536).toNat

/-- Words 3 to 15 of GET_STATUS SELECT 0 (R230, R371, R430). POWER and SURPLUS take free values. -/
def Device.statusDevice (d : Device) (now : Nat) : List Word :=
  let power := d.freeWord.toNat % 2 ^ 32
  let surplus := (d.tookFree.freeWord).toNat % 2 ^ 16
  let c := d.coarse
  [d.devStatus,
    mkWord [(maskOf 16 fun p => (d.part p).defined, 0), (maskOf 16 fun p => (d.part p).oos, 16),
      (maskOf 16 fun b => d.fab.degraded.get false b, 32)],
    mkWord [(d.ten.id, 0), (d.openContexts.length, 32)],
    mkWord [(d.allocs.length, 0), (d.weaves.length, 16), ((d.ten.streams.filter (·.2.isSome)).length, 32),
      ((d.ten.seqs.filter fun e => e.2.phase ≠ 0).length, 50)],
    BitVec.ofNat 64 (d.devResetCount now)]
  ++ (List.range 5).map (fun i => BitVec.ofNat 64 (d.aon.residency.get 0 i / 1000))
  ++ [BitVec.ofNat 64 (if c then power / 1000 * 1000 else power),
    mkWord [(tjField c (d.therm.tj.get 0 0), 0), (tjField c (d.therm.tj.get 0 1), 16), (tjField c (d.therm.tj.get 0 2), 32),
      (tjField c d.therm.device, 48)],
    BitVec.ofNat 64 (if c then 0 else surplus)]

/-- The handle of the weave bound to a partition, or 0. -/
def Device.boundHandle (d : Device) (p : Nat) : Word :=
  match (d.part p).weave with
  | none => 0
  | some s => handleWord s (((d.weave? s).map (·.gen)).getD 0)

/-- Words of SELECT 1. -/
def Device.statusPart (d : Device) (now p : Nat) : List Word :=
  let q := d.part p
  [q.word p, d.boundHandle p, mkWord [(q.allItems.length % 2048, 0), (q.resetCount now % 256, 16)],
    (d.ctrRead now q.staleKnot) &&& 0xFFFFFFFF, BitVec.ofNat 64 (((q.allItems.map (·.d)).min?).getD 0),
    d.ctrRead now q.itemsDone, d.ctrRead now q.mxDone, d.ctrRead now q.pmLines, d.ctrRead now q.mereMiss,
    d.ctrRead now q.dramBursts, d.ctrRead now q.peatReads]

/-- Words of SELECT 2. -/
def Device.statusAlloc (d : Device) (slot : Nat) (a : Alloc) : List Word :=
  let stagedPages := (d.mem.staged.filter fun e => e.2 && decide (a.p0 ≤ e.1) && decide (e.1 < a.p0 + a.pages)).length
  [mkWord [(b2n a.peat, 0), (a.flags.fld 63 2, 2)],
    mkWord [(a.pages, 0), (b2n a.migrating.isSome, 32), (b2n (d.isAttached slot), 33)],
    BitVec.ofNat 64 a.base, mkWord [((d.dirtyOf a).length, 0), (stagedPages % 1024, 32)]]

/-- Words of SELECT 3. -/
def Weave.status (w : Weave) : List Word :=
  [mkWord [(w.entries.length, 0), (w.allocs.length, 16), (b2n w.bound.isSome, 25), (w.bound.getD 0, 26), (b2n w.compat, 30)],
    BitVec.ofNat 64 w.kinSet]

/-- GET_STATUS (R229). Bits of a parameter word that its entry neither names nor calls reserved count as reserved fields, here
and in every command (DESIGN CHOICE, log entry 91). A partition that is not defined reads as one without bundles: R229 gives
REFUSED_STATE only where no tenant is open. -/
def execGetStatus (s : State) : Host.Outcome State Fault Refusal :=
  hostCmd 0x02 s fun now p d =>
    let sel := (p.w 2).fld 3 0
    let part := (p.w 2).fld 11 8
    let own := p.bad 2 || decide (3 < sel) || rsvBits (p.w 2) 7 4 || rsvBits (p.w 2) 63 12 || (sel != 1 && part != 0)
      || (decide (sel < 2) && p.w 3 != 0) || (decide (2 ≤ sel) && (handleBad (p.w 3) || rsvBits (p.w 3) 63 32))
    let a := d.byHandle (p.w 3)
    let w := d.weaveByHandle (p.w 3)
    d.checked now p.id
      [(own, stBadParam), (sel != 0 && d.ten.state == .closed, stRefusedState),
       ((sel == 2 && a.isNone) || (sel == 3 && w.isNone), stStaleGen)]
      fun d =>
        match sel with
        | 0 => (d.answer now p.id stOk (d.statusDevice now)).tookFree.tookFree
        | 1 => d.answer now p.id stOk (d.statusPart now part)
        | 2 => d.answer now p.id stOk ((a.map (d.statusAlloc (handleSlot (p.w 3)))).getD [])
        | _ => d.answer now p.id stOk ((w.map Weave.status).getD [])

/-! ### Authorisation (R434) -/

/-- 48 bytes in six words, most significant byte first in ascending byte order. -/
def beWords (ws : List Word) : Nat := ofBe (wordsBytes ws)

/-- An authorisation block over the command's words `ws` from word 2 on passes. -/
def KsWrite.authorises (k : KsWrite) (op : Nat) (ws auth : List Word) : Bool :=
  let counter := wordAt auth 0
  match k.owner with
  | none => false
  | some key =>
    decide (k.counter < counter.toNat)
      && ecdsaVerify key (wordsBytes ([BitVec.ofNat 64 op, Config.serial, counter] ++ ws))
          (beWords ((auth.drop 1).take 6)) (beWords ((auth.drop 7).take 6))

/-- Words drawn from the DRBG. -/
def Device.draw (d : Device) (n : Nat) : List Word := (rangeFrom d.sec.draws n).map Config.drbg
def Device.drew (d : Device) (n : Nat) : Device := { d with sec := { d.sec with draws := d.sec.draws + n } }

/-- Words of DRBG output of a 96-bit IV, a 256-bit key. -/
def ivWords : Nat := 2
def keyWords : Nat := 4

/-- A TENANT_OPEN waits for its key-store commit. -/
def Device.opening (d : Device) : Bool := d.peat.waits.any fun w => (w.ks.bind (·.tenant)).isSome

/-- TENANT_OPEN (R231, R423). -/
def execTenantOpen (s : State) : Host.Outcome State Fault Refusal :=
  hostCmd 0x04 s fun now p d =>
    let id := (p.w 2).fld 31 0
    let n := (p.w 2).fld 47 32
    let auth := (p.words.drop 3).take 13
    let k := d.keyStore
    d.checked now p.id
      [(p.badFlags || n != 13 || p.len != 4 + n || id == 0 || rsvBits (p.w 2) 63 48, stBadParam),
       (!d.sec.entropyReady, stNotReadyEntropy),
       (d.notServed 0x04 || d.ten.state != .closed || d.opening, stRefusedState),
       (!k.authorises 0x04 [p.w 2] auth, stDenied)]
      fun d =>
        let key := d.draw keyWords
        (d.drew (keyWords + ivWords)).writeKeys now p.id
          { k with counter := (wordAt auth 0).toNat, tenant := some (id, key) } [BitVec.ofNat 64 id]

/-- Some command of a tenant context is unanswered. -/
def Device.tenantBusy (d : Device) : Bool := d.port.tags.any fun e => decide (4096 ≤ e.1) && e.2.busy
/-- Some command of a context is unanswered. -/
def Device.ctxBusy (d : Device) (ctx : Nat) : Bool := d.port.tags.any fun e => e.1 / 4096 == ctx && e.2.busy

/-- TENANT_CLOSE (R232, R425, R427). -/
def execTenantClose (s : State) : Host.Outcome State Fault Refusal :=
  hostCmd 0x05 s fun now p d =>
    d.checked now p.id
      [(p.bad 1 || rsvBits (p.w 2) 63 32, stBadParam),
       (d.ten.state == .open_ && (p.w 2).fld 31 0 != d.ten.id, stBadParam),
       (d.notServed 0x05 || d.ten.state != .open_ || d.tenantBusy, stRefusedState)]
      fun d => (d.startScrub now (some p.id)).endTenantObjects now

/-- CONTEXT_OPEN (R233, R203). -/
def execContextOpen (s : State) : Host.Outcome State Fault Refusal :=
  hostCmd 0x06 s fun now p d =>
    let c := (p.w 2).fld 7 0
    d.checked now p.id
      [(p.bad 1 || rsvBits (p.w 2) 63 8 || c == 0, stBadParam),
       (d.ten.state != .open_ || d.ten.contexts.get false c, stRefusedState)]
      fun d =>
        let d := { d with ten := { d.ten with contexts := d.ten.contexts.set false c true }
                          port := { d.port with tags := d.port.tags.clear (4096 * c) (4096 * (c + 1)) } }
        d.answer now p.id stOk []

/-- CONTEXT_CLOSE (R233). -/
def execContextClose (s : State) : Host.Outcome State Fault Refusal :=
  hostCmd 0x07 s fun now p d =>
    let c := (p.w 2).fld 7 0
    d.checked now p.id
      [(p.bad 1 || rsvBits (p.w 2) 63 8 || c == 0, stBadParam),
       (!d.ten.contexts.get false c || d.ctxBusy c, stRefusedState)]
      fun d =>
        let d := (d.releaseSensors now c).resolveCam now
        let d := { d with ten := { d.ten with contexts := d.ten.contexts.set false c false } }
        d.answer now p.id stOk []

/-- The scrub may run: Ubtur serves in RUN or HUSH, and nothing pauses it (R427). -/
def Device.scrubRuns (d : Device) : Bool :=
  d.ten.state == .scrubbing && !d.ten.scrubPaused && d.ready && !d.hub.oos && d.pwr.pfail.isNone
    && (d.pwr.state == .run || d.pwr.state == .hush)

/-- SCRUB_COMPLETE: every place of R425 is overwritten, and the device enters CLOSED (R426). -/
def execScrubComplete (s : State) : Host.Outcome State Fault Refusal :=
  s.act fun now d =>
    if !d.scrubRuns then d
    else
      let id := d.ten.scrubId
      let us := (now - d.ten.scrubAt) / 1000
      let d := d.scrubbed now
      match id with
      | some id => d.answer now id stOk [BitVec.ofNat 64 (us % 2 ^ 32)]
      | none => d

/-! ### Kin sets and the owner key (R435, R436) -/

/-- The key-encryption key of KIN_ADD (R436). -/
def kinKek (pub : Nat × Nat) (kinSet : Word) : List Byte :=
  let z := (ecMul Config.identityKey (some pub)).getD (0, 0)
  (sha384 ([0, 0, 0, 1] ++ beBytes 48 z.1 ++ kinSet.bytes ++ Config.serial.bytes)).take 32

def kinSlots : Nat := 32

/-- A loaded weave names the kin set. -/
def Device.kinInUse (d : Device) (k : Nat) : Bool := d.weaves.any fun e => e.2.kinSet == k

def KsWrite.hasKin (k : KsWrite) (i : Nat) : Bool := k.kin.any fun e => e.1 == i

/-- The key store after a KIN_ENROL whose checks have passed; none where a key fails to unwrap. -/
def KsWrite.enrol (k : KsWrite) (kind : Nat) (kinSet : Word) (pub : Nat × Nat) (wrapped : List Byte) (counter : Nat) :
    Option KsWrite :=
  let n := kinSet.toNat
  match kind with
  | 0 => some { k with owner := some pub, counter := if k.owner.isNone then k.counter else counter }
  | 1 => (kwUnwrap (kinKek pub kinSet) wrapped).map fun key =>
      { k with kin := k.kin.filter (fun e => e.1 ≠ n) ++ [(n, ofBe key)], counter := counter }
  | _ => some { k with kin := k.kin.filter fun e => e.1 ≠ n, counter := counter }

/-- KIN_ENROL (R262, R435, R436). -/
def execKinEnrol (s : State) : Host.Outcome State Fault Refusal :=
  hostCmd 0x78 s fun now p d =>
    let kind := (p.w 2).fld 1 0
    let kinSet := p.w 3
    let public_ := (p.words.drop 4).take 12
    let wrapped := (p.words.drop 16).take 5
    let auth := (p.words.drop 21).take 13
    let zero (ws : List Word) : Bool := ws.all (· == 0)
    let pub := pointOf (wordsBytes public_)
    let k := d.keyStore
    let open_ := kind == 0 && k.owner.isNone
    let new := k.enrol kind kinSet pub (wordsBytes wrapped) (wordAt auth 0).toNat
    d.checked now p.id
      [(p.bad 32 || kind == 3 || rsvBits (p.w 2) 63 2 || ((kind == 0) != (kinSet == 0)) || (kind == 2 && !zero public_)
          || (kind != 1 && !zero wrapped), stBadParam),
       ((open_ && !zero auth) || (kind == 2 && !k.hasKin kinSet.toNat), stBadParam),
       (!d.sec.entropyReady, stNotReadyEntropy),
       (d.notServed 0x78 || (kind == 1 && decide (kinSlots ≤ k.kin.length)) || (kind != 0 && d.kinInUse kinSet.toNat), stRefusedState),
       ((kind != 2 && !ecOnCurve pub.1 pub.2) || (!open_ && !k.authorises 0x78 ((p.words.drop 2).take 19) auth) || new.isNone,
         stDenied)]
      fun d =>
        let k := { new.getD k with tenant := none }
        (d.drew ivWords).writeKeys now p.id k [kinSet, BitVec.ofNat 64 (kinSlots - k.kin.length)]

/-! ### Entropy (R439–R442) -/

/-- ENTROPY_GET (R263, R442): one generate request, from a state reseeded within the previous 2 ms. -/
def execEntropyGet (s : State) : Host.Outcome State Fault Refusal :=
  hostCmd 0x79 s fun now p d =>
    let n := (p.w 2).fld 9 0
    d.checked now p.id
      [(p.bad 1 || n == 0 || decide (512 < n) || rsvBits (p.w 2) 63 10, stBadParam),
       (!d.sec.entropyReady, stNotReadyEntropy)]
      fun d =>
        let out := d.draw n
        let d := d.drew n
        let d := if d.sec.reseedAt + 2000000 < now then { d with sec := { d.sec with reseedAt := now } } else d
        d.answer now p.id stOk out

/-- A half's generator takes 128 bits from the entropy source (R284). -/
def Device.reseedHalf (d : Device) (h : Nat) : Device :=
  let w := d.draw 2
  (d.modHalfDram h fun x => { x with gen128 := (wordAt w 1) ++ (wordAt w 0), draws := 0 }).drew 2

/-- ns of the 4,096 samples of start-up. -/
def startupNs : Nat := 4096000

/-- ENTROPY_STARTUP_DONE (R440). The neighbour-refresh generators take their seed from the new DRBG (R284). -/
def execEntropyStartupDone (pass : Bool) (s : State) : Host.Outcome State Fault Refusal :=
  s.act fun now d =>
    match d.sec.startAt with
    | none => d
    | some t =>
      if now < t + startupNs then d
      else if pass then
        let d := if d.sec.seeded then d else (d.reseedHalf 0).reseedHalf 1
        { d with sec := { d.sec with entropyReady := true, seeded := true, startAt := none, fails := 0, failed := false
                                     reseedAt := now } }
      else
        let n := d.sec.fails + 1
        if 3 ≤ n then { d with sec := { d.sec with fails := n, failed := true, failedAt := now, startAt := none } }
        else { d with sec := { d.sec with fails := n, startAt := some now } }

/-- ENTROPY_RETRY: while the source is failed, start-up runs again every 1 s (R440). -/
def execEntropyRetry (s : State) : Host.Outcome State Fault Refusal :=
  s.act fun now d =>
    if d.sec.failed && d.sec.startAt.isNone && decide (d.sec.failedAt + 1000000000 ≤ now) then
      { d with sec := { d.sec with startAt := some now } }
    else d

/-- HEALTH_TEST_FAIL (R441): key-store writes not committed are answered NOT_READY_ENTROPY and leave no effect. -/
def execHealthTestFail (s : State) : Host.Outcome State Fault Refusal :=
  s.act fun now d =>
    if !d.sec.entropyReady then d
    else
      let d := { d with sec := { d.sec with entropyReady := false, startAt := some now } }
      let ws := d.peat.waits.filter fun w => w.ks.isSome
      let d := d.modPeat fun p => { p with waits := p.waits.filter fun w => w.ks.isNone }
      forEach d ws fun d w => d.answer now w.id stNotReadyEntropy []

/-- DRBG_RESEED: every 1 ms (R439). -/
def execDrbgReseed (s : State) : Host.Outcome State Fault Refusal :=
  s.act fun now d =>
    if d.sec.entropyReady && decide (d.sec.reseedAt + 1000000 ≤ now) then { d with sec := { d.sec with reseedAt := now } }
    else d

end Sys2Proof.Machine
end

