-- ==== Sys2Proof/Machine/Arbiter.lean ====
section
/-! DEFINITION. The deadline arbiters (R34–R39), the neighbour-refresh draw at an activate (R283, R284), and the event path
(R40, R212–R215). -/

namespace Sys2Proof.Machine

/-! ### Order of requests (R34, R35) -/

/-- The 16 ns unit since which a request is past: as marked, or from the moment its d reached 0. -/
def Req.pastSince (r : Req) (now : Nat) : Option Int :=
  match r.past with
  | some t => some t
  | none => if lstDist now r.lst ≤ 0 then some ((now / 16 : Nat) + lstDist now r.lst) else none

/-- How long a past request has been past, saturating. -/
def pastCount (now : Nat) (t : Int) : Int := min (2 ^ 31 - 1) ((now / 16 : Nat) - t)

/-- Request `a` is granted before `b`: past ones first, the one past longer; then the nearer; then the port order. -/
def Req.nearer (now : Nat) (a b : Req) : Bool :=
  match a.pastSince now, b.pastSince now with
  | some x, some y =>
    decide (pastCount now y < pastCount now x) || (pastCount now x == pastCount now y && decide (a.port < b.port))
  | some _, none => true
  | none, some _ => false
  | none, none =>
    decide (lstDist now a.lst < lstDist now b.lst) || (lstDist now a.lst == lstDist now b.lst && decide (a.port < b.port))

/-- The request that a free resource grants. -/
def nearest (now : Nat) (l : List Req) : Option Req :=
  l.foldl (fun best r => match best with
    | none => some r
    | some b => if r.nearer now b then some r else some b) none

def Req.at_ (r : Req) (site : Site) (inst : Nat) : Bool := r.site == site && r.inst == inst
def Holder.at_ (h : Holder) (site : Site) (inst : Nat) : Bool := h.site == site && h.inst == inst

/-! ### Neighbour refresh (R283, R284) -/

def Device.sub (d : Device) (sc : Nat) : SubDram := d.dram.subs.get SubDram.init sc
def Device.modSub (d : Device) (sc : Nat) (f : SubDram → SubDram) : Device :=
  { d with dram := { d.dram with subs := d.dram.subs.modify SubDram.init sc f } }

/-- NR_SHIFT in force (R272). -/
def Dram.nrShift (x : Dram) : Nat := let n := x.settings.fld 5 2; if 6 ≤ n ∧ n ≤ 12 then n else 9

/-- The oldest pending neighbour refresh of a subchannel is due at once. -/
def Device.advanceOldest (d : Device) (now sc : Nat) : Device :=
  let due (l : List Req) : List Req := match l.findIdx? fun r => r.at_ .memPort sc && r.job.what == .neighbour with
    | some i => l.modify i fun r => { r with lst := lstNow now, past := some (now / 16 : Nat) }
    | none => l
  { d.modSub sc fun x => { x with neighbours := x.neighbours.modify 0 fun n => { n with due := now } } with
    arb := { d.arb with reqs := due d.arb.reqs } }

/-- A neighbour refresh of a row is scheduled 3.9 µs ahead. -/
def Device.scheduleNeighbour (d : Device) (now sc : Nat) (at_ : Nat × Nat) : Device :=
  let d := if 16 ≤ (d.sub sc).neighbours.length then d.advanceOldest now sc else d
  let n : Neighbour := ⟨now + 3900, at_.1, at_.2, d.dram.kit.directed⟩
  (d.modSub sc fun x => { x with neighbours := x.neighbours ++ [n] }).request now [⟨.memPort, sc, 0, 1, none⟩]
    (lstOf now (now + 3900)) ⟨none, none, .neighbour⟩

/-- The draw at an activate of a page's row: the half's generator steps, with probability 2^−NR_SHIFT a refresh is scheduled,
and the bank's activations count. -/
def Device.neighbourDraw (d : Device) (now sc page : Nat) : Device :=
  let h := sc / 6
  let x := d.halfDram h
  let gen := Config.genStep x.gen128
  let at_ := Config.rowAt sc page
  let d := d.modHalfDram h fun x => { x with gen128 := gen, draws := x.draws + 1 }
  let d := d.modSub sc fun x => { x with activations := x.activations.modify 0 at_.1 (· + 1) }
  let d := if Config.genHit gen d.dram.nrShift then d.scheduleNeighbour now sc at_ else d
  if 2 ^ 32 ≤ (d.halfDram h).draws && d.sec.seeded then d.reseedHalf h else d

/-! ### Refresh debts (R281, R283) -/

/-- DRAM serves at one of its operating points. -/
def Dram.serves (x : Dram) : Bool := x.trained && !x.selfRefresh && x.freq.isNone

/-- ns between the refreshes a bank index owes: as mode register 4 last indicated (R282), else the components' own. -/
def Device.refreshNs (d : Device) (sc : Nat) : Nat :=
  if (d.sub sc).interval = 0 then d.dram.kit.interval else (d.sub sc).interval

/-- The time up to which a bank index has paid. -/
def Device.paidTo (d : Device) (sc bank : Nat) : Nat := max d.dram.refreshFrom ((d.sub sc).paid.get 0 bank)

/-- A bank index owes a refresh: an interval has passed since it last paid. -/
def Device.owes (d : Device) (now sc bank : Nat) : Bool :=
  decide (0 < d.refreshNs sc) && decide (d.paidTo sc bank + d.refreshNs sc ≤ now)

/-- A refresh of a bank index pays for one interval. -/
def Device.payRefresh (d : Device) (sc bank : Nat) : Device :=
  d.modSub sc fun x => { x with paid := x.paid.set 0 bank (d.paidTo sc bank + d.refreshNs sc) }

/-- Every debt of every subchannel is paid (R281, R285). -/
def Device.payAll (d : Device) (now : Nat) : Device := { d with dram := { d.dram with refreshFrom := now } }

/-- The requests of refresh management that follow from what is owed: for a bank index, 200 ns before the limit to which its
debt may be postponed; for a bank whose activations require it, at once. -/
def Device.refreshReqs (d : Device) (now sc : Nat) : List Req :=
  let req (x : Xfer) (at_ : Nat) : Req :=
    let l := lstOf now at_
    { site := .memPort, inst := sc, port := 0, units := 1, lst := l
      past := if lstDist now l ≤ 0 then some ((now / 16 : Nat) + lstDist now l) else none, job := ⟨none, none, x⟩, route := [] }
  (((List.range 4).filter fun b => d.owes now sc b).map fun b =>
      req (.refresh b) (d.paidTo sc b + (1 + d.dram.kit.postponed) * d.refreshNs sc - 200))
    ++ (((d.sub sc).activations.filter fun e => decide (0 < d.dram.kit.activations) && decide (d.dram.kit.activations ≤ e.2)).map
      fun e => req (.rfm e.1) now)

/-! ### Parity recovery (R291) -/

/-- The subchannel issues nothing: an alert recovery is under way. -/
def SubDram.stopped (x : SubDram) (now : Nat) : Bool := x.alertAt.isSome && decide (now < x.replayEnd)

/-- A command enters the retry buffer of the last 64. -/
def Device.buffer (d : Device) (now : Nat) (r : Req) : Device :=
  if d.dram.kit.parity then
    d.modSub r.inst fun x => { x with retry := (x.retry ++ ([⟨now, r⟩] : List Issued)).drop (x.retry.length + 1 - 64) }
  else d

/-! ### Grants (R34, R38) -/

/-- Sides of the bridge, numbered as the halves, that a request at the bridge uses: the hub's traffic that of the half where it goes on,
traffic between the halves both (log entry 58). -/
def Req.sides (r : Req) : List Nat :=
  match r.port, r.route with
  | 0, s :: _ => [s.inst / 4]
  | _, _ => [0, 1]

/-- The request that the free resource grants: at a memory port among those of refresh management too, and none while DRAM does
not serve (R285) or its subchannel recovers from an alert (R291); at the bridge none over a side that has stopped (R406). -/
def Device.nextReq (d : Device) (now : Nat) (site : Site) (inst : Nat) : Option Req :=
  let raised := d.arb.reqs.filter (·.at_ site inst)
  match site with
  | .memPort => if d.dram.serves && !(d.sub inst).stopped now then nearest now (raised ++ d.refreshReqs now inst) else none
  | .bridge => nearest now (raised.filter fun r => r.sides.all fun h => !d.hub.laneStopped.get false h)
  | _ => nearest now raised

/-- What a transfer's last grant here does: a message that has every site of its path comes to its receiver's crossbar port; a
refresh, a refresh-management command or the oldest neighbour refresh is issued; a program, erase or commit starts if R37 still
permits it; a scrub goes on to its next write. -/
def Device.granted (d : Device) (now inst : Nat) (x : Xfer) : Device :=
  match x with
  | .flash c => if d.opReady now c then d.startOp now c else d
  | .msg id => ({ d with fab := { d.fab with
      msgs := d.fab.msgs.map fun m => if m.id = id then { m with turn := some d.arb.next } else m } } : Device).numbered
  | .refresh b => d.payRefresh inst b
  | .rfm b => d.modSub inst fun x => { x with activations := x.activations.modify 0 b fun n => n - d.dram.kit.activations }
  | .neighbour => d.modSub inst fun x => { x with neighbours := x.neighbours.drop 1 }
  | .scrub => d.askScrub now
  | _ => d

/-- Request `r` takes its resource for one unit of transfer; with its last unit here the transfer goes on to the next port. -/
def Device.take (d : Device) (now : Nat) (r : Req) : Device :=
  let h : Holder := ⟨r.site, r.inst, r.port, now, r.lst, r.job, r.route⟩
  let left := if r.units ≤ 1 then d.arb.reqs.erase r
    else d.arb.reqs.map fun x => if x = r then { r with units := r.units - 1 } else x
  let d := { d with arb := { d.arb with
    reqs := left, holders := (d.arb.holders.filter fun x => !x.at_ r.site r.inst) ++ [h] } }
  let d := if 1 < r.units then d else if r.route.isEmpty then d.granted now r.inst r.job.what else d.request now r.route r.lst r.job
  if r.site ≠ .memPort then d
  else match r.page with
    | some p => (d.buffer now r).neighbourDraw now r.inst p
    | none => d.buffer now r

/-- A message that waits at its receiver's port keeps the last output it passed (R67). -/
def Device.heldOpen (d : Device) (h : Holder) : Bool :=
  match h.job.what with
  | .msg id => h.route.isEmpty && d.fab.msgs.any fun m => m.id == id && m.turn.isSome
  | _ => false

/-- A resource is free again and grants its nearest request; with none it stands free. -/
def Device.grant (d : Device) (now : Nat) (site : Site) (inst : Nat) : Device :=
  match d.nextReq now site inst with
  | some r => d.take now r
  | none => { d with arb := { d.arb with holders := d.arb.holders.filter fun h => !h.at_ site inst } }

/-- ARBITER_GRANT: the unit under way at a resource is over, and the resource grants its nearest request (R34). -/
def execArbiterGrant (site : Site) (inst : Nat) (s : State) : Host.Outcome State Fault Refusal :=
  s.act fun now d =>
    if d.arb.holders.any fun h => h.at_ site inst && d.heldOpen h then d else d.grant now site inst

/-- NEIGHBOUR_REFRESH_ISSUE: a subchannel's port grants refresh management: a neighbour refresh or a refresh-management command
that is the nearest request there (R283). -/
def execNeighbourRefreshIssue (sc : Subch) (s : State) : Host.Outcome State Fault Refusal :=
  s.act fun now d => match d.nextReq now .memPort sc.val with
    | some r => (match r.job.what with | .neighbour | .rfm _ => d.take now r | _ => d)
    | none => d

/-- FLASH_OP_ISSUE: the first program, erase or journal commit that waits on a channel asks for it, where R37 allows it to issue,
and issues if its request is the nearest (R36, R39). -/
def execFlashOpIssue (ch : FlashCh) (s : State) : Host.Outcome State Fault Refusal :=
  s.act fun now d =>
    let c := ch.toNat
    if !d.opReady now c then d
    else
      let port := ((d.peat.queue.get [] c).head?.map (·.kind.port)).getD 2
      let d := if d.asking (.flash c) then d
        else d.request now [hop .flashChannel c port] (lstOf now (now + 10000000)) ⟨none, none, .flash c⟩
      match d.nextReq now .flashChannel c with
      | some r => if r.job.what = .flash c then d.take now r else d
      | none => d

/-- REQUEST_PAST: a request whose d has reached 0 is marked past, as of that moment (R35). -/
def execRequestPast (site : Site) (inst port : Nat) (s : State) : Host.Outcome State Fault Refusal :=
  s.act fun now d =>
    let mark (r : Req) : Req := if r.at_ site inst && r.port == port then { r with past := r.pastSince now } else r
    { d with arb := { d.arb with reqs := d.arb.reqs.map mark } }

/-- The domain whose pace times a site, and its hold limit: steps of that domain, or ns (R39). -/
def holdLimit : Site → Nat → Option Nat × Nat
  | .meshRouter, i => (some (16 + i / 16), 48)
  | .halfSpine, i => (some (20 + i / 7), 48)
  | .mereSlice, i => (some (22 + i), 24)
  | .bridge, _ => (some 34, 64)
  | .memPort, _ => (none, 250)
  | .flashChannel, _ => (none, 20000)
  | .hubEvent, _ => (some 34, 16)

def Device.holdNs (d : Device) (site : Site) (inst : Nat) : Nat :=
  match holdLimit site inst with
  | (some i, n) => cdiv (n * 1000) (paceRate (d.dom i).pace)
  | (none, n) => n

def siteNum (s : Site) : Nat := siteAll.idxOf s

/-- A transfer is cut off (R38): a message or a page-mover entry is lost with all that it asks elsewhere; a program or erase goes
back to the head of its channel's queue; what serves others, or no core, asks for the unit again (log entry 104). -/
def Device.abort (d : Device) (now : Nat) (h : Holder) : Device :=
  let gone := { d with arb := { d.arb with
    reqs := d.arb.reqs.filter fun r => r.job.what != h.job.what
    holders := d.arb.holders.filter fun x => x.job.what != h.job.what } }
  match h.job.what with
  | .msg id => { gone with fab := { gone.fab with msgs := gone.fab.msgs.filter fun m => m.id != id } }
  | .mover c t => gone.modCore c fun k => { k with mover := k.mover.filter fun e => !(e.started && e.ticket == t) }
  | .flash ch => match d.peat.busy.get none ch with
    | some op => { gone with peat := { gone.peat with
        busy := gone.peat.busy.set none ch none, queue := gone.peat.queue.modify [] ch fun q => op :: q } }
    | none => gone
  | .refresh _ | .rfm _ | .neighbour => d
  | _ => if h.site = .hubEvent then d else d.request now [hop h.site h.inst h.port] h.lst h.job

/-- HOLD_CUT: a holder beyond its hold limit is cut off (R38): the event, the fault log, a fault of its partition, and a
fresh arbitration. -/
def execHoldCut (site : Site) (inst : Nat) (s : State) : Host.Outcome State Fault Refusal :=
  s.act fun now d =>
    match d.arb.holders.find? (·.at_ site inst) with
    | none => d
    | some h =>
      if now < h.since + d.holdNs site inst then d
      else
        let w := mkWord [(siteNum site, 0), (h.port, 8), (h.job.part.getD 0xFF, 16)]
        let d := { d with arb := { d.arb with holders := d.arb.holders.filter fun x => !x.at_ site inst } }
        let d := (d.abort now h).raise now 1 0x0003 w 0
        let d := match h.job.part with
          | some p => d.partFault now p fcHoldCut h.job.core ((h.job.core.map fun c => (d.core c).pc).getD 0) w.toNat 0 false true
          | none => d.logFault now fcHoldCut none h.job.core w.toNat 0
        d.grant now site inst

/-! ### Events (R40, R212–R215) -/

/-- Records the event FIFO holds (R214). -/
def eventFifo : Nat := 4096

def eventWords (seq : Nat) (e : Ev) : List Word :=
  [mkWord [(seq, 0), (e.code, 32), (e.source, 48)], BitVec.ofNat 64 e.time, e.w2, e.w3]

/-- Event `a` passes before `b`: earlier, or of a source that stands first (R40, R41). -/
def Ev.before (a b : Ev) : Bool := decide (a.time < b.time) || (a.time == b.time && decide (a.source < b.source))

/-- Index of the event that passes next. -/
def nextEvent (l : List Ev) : Option (Nat × Ev) :=
  (l.zipIdx).foldl (fun best x => match best with
    | none => some (x.2, x.1)
    | some b => if x.1.before b.2 then some (x.2, x.1) else some b) none

/-- A record enters the FIFO and sets its causes (R215). -/
def Device.enterEvent (d : Device) (ws : List Word) (code source : Nat) : Device :=
  let d := ({ d with ev := { d.ev with fifo := d.ev.fifo ++ [ws] } } : Device).setCause causeEvent
  let d := if code = 0x0030 then d.setCause causeKnot else d
  if source = 1 then d.setCause causeFault else if source = 2 then d.setCause causeAlarm else d

/-- EVENTS_LOST goes before the next event once there is room (R214). -/
def Device.enterLost (d : Device) (now : Nat) : Device :=
  match d.ev.gap with
  | none => d
  | some (first, n) =>
    if eventFifo ≤ d.ev.fifo.length then d
    else ({ d with ev := { d.ev with gap := none } } : Device).enterEvent
      (eventWords first ⟨now, 0, 0x00F0, mkWord [(n % 2 ^ 32, 0)], 0⟩) 0x00F0 0

/-- The event path's grant for a record at its source's port (R39, R41). -/
def Device.holdEvent (d : Device) (now : Nat) (e : Ev) : Device :=
  let h : Holder := ⟨.hubEvent, 0, e.source - 1, now, e.time / 16 % 2 ^ 32, ⟨none, none, .hub⟩, []⟩
  { d with arb := { d.arb with holders := (d.arb.holders.filter fun x => !x.at_ .hubEvent 0) ++ [h] } }

/-- EVENT_PASS: the event arbiter grants its path to one event, which passes with the next sequence number, or the FIFO drops
it (R40, R214). -/
def execEventPass (s : State) : Host.Outcome State Fault Refusal :=
  s.act fun now d =>
    if !d.portOn then d
    else match nextEvent d.ev.waiting with
      | none => d
      | some (i, e) =>
        let n := d.ev.seq
        let d := { d with ev := { d.ev with waiting := d.ev.waiting.eraseIdx i, seq := (n + 1) % 2 ^ 32 } }
        let d := (d.holdEvent now e).enterLost now
        if eventFifo ≤ d.ev.fifo.length then
          { d with ev := { d.ev with
              lost := (d.ev.lost + 1) % 2 ^ 32
              gap := some (match d.ev.gap with | none => (n, 1) | some (f, k) => (f, k + 1)) } }
        else d.enterEvent (eventWords n e) e.code e.source

end Sys2Proof.Machine
end

