-- ==== Sys2Proof/Machine/Camera.lean ====
section
/-! DEFINITION. CSI-2 ports and ISP pipes (R255, R323–R345): CAMERA_SET, frames and their numbers, truncation, and what a
pipe writes when a frame completes. -/

namespace Sys2Proof.Machine

/-! ### Floors (R331) -/

/-- A pipe's domain has reached the floor that a block needs of it (R331). -/
def Device.paceReady (d : Device) (w : CamWait) : Bool :=
  decide (w.target < 8) ||
    decide (paceFor (((d.pipe (w.target - 8)).setSlot w.ctx w.block).slots.map PipeSlot.rate).sum ≤ (d.dom (22 + w.target)).pace)

/-! ### Frames (R326–R330) -/

/-- A pipe meets a Frame Start: idle, it takes the frame of its lowest slot with that source; the others skip it. -/
def Pipe.frameStart (p : Pipe) (port vc : Nat) (fr : Frame) : Pipe :=
  let mine := ((List.range 4).filterMap fun n => p.slots.find? fun x => x.num == n && x.from_ port vc)
  match mine with
  | [] => p
  | x :: _ =>
    let free := p.cur.isNone
    { cur := if free then some ⟨x, port, vc, fr, [], false, false, 0, 0⟩ else p.cur
      slots := p.slots.map fun y =>
        if !y.from_ port vc then y
        else if free && y.num == x.num then { y with frames := y.frames + 1 } else { y with skipped := y.skipped + 1 } }

/-- CSI_FRAME_START: the channel's number advances, blocks that waited take effect, and idle pipes take the frame. -/
def execCsiFrameStart (port : CsiPort) (vc : BitVec 4) (sensorFrame : BitVec 16) (s : State) : Host.Outcome State Fault Refusal :=
  s.act fun now d =>
    let t := port.toNat; let v := vc.toNat
    let due := d.cam.waits.filter fun w => d.camBoundary w t v && d.paceReady w
    let enabled := !(d.csi t).slots.isEmpty
    if !d.csiPowered t || !(enabled || due.any fun w => w.target == t) then d
    else
      let d := d.csiPacket now t true
      if !d.hubServes || !((d.csi t).takes v || due.any fun w => w.target == t) then d
      else
        let d := d.truncate now t v false
        let n := ((d.csi t).numbers.get 0 v + 1) % 2 ^ 32
        let fr : Frame := ⟨n, sensorFrame.toNat, now⟩
        let d := d.modCsi t fun x => { x with numbers := x.numbers.set 0 v n, frames := x.frames.set none v (some fr) }
        let d := (forEach d due fun d w => (d.applyCam now w).answerCam now w (BitVec.ofNat 64 n)).resolveCam now
        if (d.csi t).takes v then forEach d [0, 1, 2, 3] fun d i => d.modPipe i fun p => p.frameStart t v fr
        else d.modCsi t fun x => { x with frames := x.frames.set none v none }

/-- A line enters a pipe's frame: a bad one is replaced by the last good line four, eight, … lines above, or by zeros. -/
def PipeFrame.line (f : PipeFrame) (payload : List Byte) (good : Bool) : PipeFrame :=
  let w := PipeBlock.width f.slot.block
  let bits := (rawBits (PipeBlock.dataType f.slot.block)).getD 8
  if good && payload.length * 8 == w * bits then
    { f with lines := f.lines ++ [unpackRaw bits payload], received := f.received + 1 }
  else
    let n := f.lines.length
    let old := if 4 ≤ n then f.lines.getD (n - 4) [] else List.replicate w 0
    { f with lines := f.lines ++ [old], received := f.received + 1, badLines := f.badLines + 1 }

/-- CSI_LINE: a long packet; one with a valid header counts for the link, whatever its CRC (R325). An overflow of the port's input
buffer truncates the frame, one of a pipe's output staging that pipe's (R328, R330, R339). -/
def execCsiLine (port : CsiPort) (vc : BitVec 4) (dt : BitVec 6) (payload : List Byte) (check : LineCheck) (ovr : Overflow) (s : State) :
    Host.Outcome State Fault Refusal :=
  s.act fun now d =>
    let t := port.toNat; let v := vc.toNat
    if !d.csiPowered t || (d.csi t).slots.isEmpty then d
    else
      let d := d.csiPacket now t (check != .badHeader)
      if !d.hubServes || !(d.csi t).takes v then d
      else
        let line (d : Device) (is : List Nat) : Device := forEach d is fun d i =>
          (d.modFrame i fun f => if PipeBlock.dataType f.slot.block = dt.toNat then f.line payload (check == .good) else f).askOutputs now i
        match ovr with
        | .none => line d (d.taking t v)
        | .input => d.truncate now t v true
        | .staging p => line (d.endFrames now t v ((d.taking t v).filter (· == p.toNat)) true) ((d.taking t v).filter (· != p.toNat))

/-- CSI_FRAME_END: one before the last line truncates the frame (R328). -/
def execCsiFrameEnd (port : CsiPort) (vc : BitVec 4) (s : State) : Host.Outcome State Fault Refusal :=
  s.act fun now d =>
    let t := port.toNat; let v := vc.toNat
    if !d.csiPowered t || (d.csi t).slots.isEmpty then d
    else
      let d := d.csiPacket now t true
      if !d.hubServes || !(d.csi t).takes v then d else d.truncate now t v false

/-- CSI_PACKET_GAP: no packet has arrived on the port for 2 ms. -/
def execCsiPacketGap (port : CsiPort) (s : State) : Host.Outcome State Fault Refusal :=
  s.act fun now d =>
    if d.hubServes && decide ((d.csi port.toNat).lastAny + 2000000 ≤ now) then d.truncatePort now port.toNat else d

/-- CSI_LINK_TIMEOUT: no valid packet for LINK_TIMEOUT; the link goes down (R325). -/
def execCsiLinkTimeout (port : CsiPort) (s : State) : Host.Outcome State Fault Refusal :=
  s.act fun now d =>
    let t := port.toNat
    match (d.csi t).slots with
    | [] => d
    | x :: _ =>
      if d.csiPowered t && (d.csi t).link && decide ((d.csi t).lastPacket + linkTimeout x.w4 * 1000000 ≤ now) then
        let d := d.truncatePort now t
        ((d.modCsi t fun x => { x with link := false }).raiseLink now t false).resolveCam now
      else d

/-! ### A frame completes (R342, R344) -/

/-- A unit outside the cores signals a global knot by 1 with its current generation: the one assigned at an index to a
bound weave. A count that would pass 2^32 − 1 is left unchanged (R71); it is a fault of no core (log entry 10). -/
def Device.signalWeave (d : Device) (now : Nat) (weave : Word) (index : Nat) : Device :=
  if index = 4095 then d
  else match d.weaveByHandle weave with
    | none => d
    | some w => match w.bound, w.knotIdx[index]? with
      | some _, some i =>
        let n := BitVec.ofNat 32 (d.globalName i)
        match d.liveCount n with
        | some c => ((d.setCount n (min (c + 1) (2 ^ 32 - 1))).fire now n).wakeCores
        | none => d
      | _, _ => d

/-- What a hub unit has written lies in the home mere, and without WRITE_BACK goes to DRAM as it lands (R164, R172). -/
def Device.hubPlace (d : Device) (now : Nat) (a : Alloc) (off within : Nat) (bs : List Byte) : Device :=
  forEach (d.writeBytes a off bs) (pageLines (a.base + off) bs.length) fun d p =>
    d.writtenLines now ⟨none, none, lstOf now (now + within)⟩ 1 p.1 p.2

/-- A buffer goes to its allocation through the home mere, entering by the bridge port. -/
def Device.hubWrite (d : Device) (now : Nat) (a : Alloc) (off within : Nat) (bs : List Byte) : Device :=
  (d.hubAsk now a off bs.length within .hub).hubPlace now a off within bs

/-- The first words of a statistics record (R344). -/
def PipeFrame.statsHead (f : PipeFrame) (now lost bad skipped : Nat) : List Byte :=
  let outs := f.slot.block
  let buffers := (PipeBlock.outputs outs).map fun o => (o.2.index f.slot.frames, 8 * o.1)
  wordsBytes [mkWord [(f.frame.number, 0), (f.frame.sensor, 32), (f.port, 48), (f.vc, 51), (f.slot.num, 55)],
    BitVec.ofNat 64 f.frame.at_, BitVec.ofNat 64 now,
    mkWord [(f.received, 0), (b2n f.truncated, 14), (b2n f.overrun, 15), (lost, 16), (bad % 65536, 32), (skipped % 65536, 48)],
    mkWord buffers]

/-- The frame of a pipe is complete: its outputs and record are written whole, then its knots are signalled, but those of outputs
that the end of their allocation has disabled (R342). -/
def Device.completeFrame (d : Device) (now i : Nat) : Device :=
  match (d.pipe i).cur with
  | none => d
  | some f =>
    let b := f.slot.block
    let bits := (rawBits (PipeBlock.dataType b)).getD 8
    let p := prepared b bits f.lines
    let colour := colourPlanes b p
    let ir := irPlane b p
    let outs := PipeBlock.outputs b
    let lost := (outs.filter fun o => (d.byHandle o.2.handle).isNone).map fun o => 2 ^ o.1
    let e := forEach d outs fun d o => match d.byHandle o.2.handle with
      | none => d
      | some a => d.hubPlace now a (o.2.offset + o.2.index f.slot.frames * o.2.size (PipeBlock.mosaic b)) 20000 (o.2.buffer b colour ir)
    let slot := ((d.pipe i).slots.find? fun x => x.ctx == f.slot.ctx).getD f.slot
    let stats := PipeBlock.statsHandle b
    let wrote := stats != 0 && (d.byHandle stats).isSome
    let e := match if stats = 0 then none else d.byHandle stats with
      | none => e
      | some a =>
        let at_ := PipeBlock.statsOffset b + f.slot.frames % PipeBlock.statsBuffers b * 8192
        e.hubPlace now a at_ 20000 (f.statsHead now lost.sum (slot.badLines + f.badLines) slot.skipped ++ statsTail b p colour)
    let e := e.modPipe i fun p => { p with
      cur := none
      slots := p.slots.map fun x =>
        if x.ctx != f.slot.ctx then x
        else if wrote then { x with badLines := 0, skipped := 0 } else { x with badLines := x.badLines + f.badLines } }
    forEach e (outs.filter fun o => (d.byHandle o.2.handle).isSome) fun d o => d.signalWeave now o.2.knotWeave o.2.knot

/-- PIPE_FRAME_COMPLETE: the pipe has processed its last sample, and every transfer of its outputs has been granted (R342, R343). -/
def execPipeFrameComplete (pipe : BitVec 2) (s : State) : Host.Outcome State Fault Refusal :=
  s.act fun now d =>
    if d.hubServes && (d.pipe pipe.toNat).cur.any PipeFrame.ended && !d.asking (.pipe pipe.toNat) then d.completeFrame now pipe.toNat else d

/-- The pipes stop as the device leaves HUSH or RUN for LISTEN: frames in progress are truncated and written (R345). -/
def Device.stopPipes (d : Device) (now : Nat) : Device :=
  let d := forEach d (List.range 8) fun d t => d.truncatePort now t
  forEach d [0, 1, 2, 3] fun d i =>
    let d := d.completeFrame now i
    { d with arb := { d.arb with reqs := d.arb.reqs.filter fun r => r.job.what != .pipe i } }

/-! ### CAMERA_SET (R255, R324, R331–R333) -/

/-- Fields of a port block lie in their ranges. -/
def portBlockOk (w3 w4 : Word) : Bool :=
  w3.fld 2 1 != 3 && decide (80 ≤ w3.fld 16 4) && decide (w3.fld 16 4 ≤ 4500) && w3.fld 31 17 == 0 && w3.fld 63 48 == 0
    && (!w3.getLsbD 0 || portMask w3 != 0) && decide (10 ≤ linkTimeout w4) && decide (linkTimeout w4 ≤ 10000) && w4.fld 63 14 == 0

/-- A port block breaks a rule of R324 against the port's other slots, `slots`: those enabled, and those of blocks that wait. -/
def portConflict (slots : List PortSlot) (ctx : Nat) (w3 w4 : Word) : Bool :=
  let others := slots.filter (·.ctx != ctx)
  w3.getLsbD 0 && (decide (4 ≤ (others.map (·.ctx)).eraseDups.length)
    || others.any fun x => portLine x.w3 != portLine w3 || linkTimeout x.w4 != linkTimeout w4
        || (portMask x.w3 &&& portMask w3) != 0)

/-- Allocation handles of an enabled block: outputs', then the statistics record's. -/
def blockHandles (b : PipeBlock) : List Word :=
  if !PipeBlock.enable b then []
  else (PipeBlock.outputs b).map (·.2.handle) ++ (if PipeBlock.statsHandle b = 0 then [] else [PipeBlock.statsHandle b])

/-- Every handle word of a block, whatever it enables (R166). -/
def blockHandleWords (b : PipeBlock) : List Word :=
  PipeBlock.statsHandle b :: (List.range 4).flatMap fun j => [(PipeBlock.output b j).handle, (PipeBlock.output b j).knotWeave]

/-- Weave handles of an enabled block. -/
def blockWeaves (b : PipeBlock) : List (Word × Nat) :=
  if !PipeBlock.enable b then []
  else ((PipeBlock.outputs b).filter fun o => o.2.knot != 4095).map fun o => (o.2.knotWeave, o.2.knot)

/-- The destination is a DRAM-homed allocation without READ_ONLY or PLAIT that holds `n` bytes from `off` (R342). -/
def Device.destOk (d : Device) (h : Word) (off n : Nat) : Bool :=
  (d.byHandle h).any fun a => !a.peat && !flagReadOnly a.flags && !flagPlait a.flags && decide (off + n ≤ a.bytes)

/-- Every destination of an enabled block is legal, and every knot index is one of its weave's. -/
def Device.blockDestOk (d : Device) (b : PipeBlock) : Bool :=
  !PipeBlock.enable b ||
    ((PipeBlock.outputs b).all (fun o => d.destOk o.2.handle o.2.offset (o.2.buffers * o.2.size (PipeBlock.mosaic b)))
      && (PipeBlock.statsHandle b == 0 || d.destOk (PipeBlock.statsHandle b) (PipeBlock.statsOffset b) (PipeBlock.statsBuffers b * 8192))
      && (blockWeaves b).all fun x => (d.weaveByHandle x.1).any fun w => decide (x.2 < w.knots))

/-- A CAMERA_SET of the context to the target is unanswered. -/
def Device.camPending (d : Device) (ctx target : Nat) : Bool :=
  d.cam.waits.any fun w => w.ctx == ctx && w.target == target && w.id.isSome

/-- The slots of a port, with those that blocks of other contexts will take: a release counts when it has taken effect. -/
def Device.portSlots (d : Device) (target ctx : Nat) : List PortSlot :=
  (d.csi target).slots ++ (d.camWaiting target ctx).flatMap fun w => setPortSlot [] w.ctx w.block

/-- A pipe's slots with the block taken would pass four, or 1,200 M pixels/s (R329, R331): of a context whose block waits, the greater
of its rates counts. -/
def Device.pipeRefuses (d : Device) (pipe ctx : Nat) (b : PipeBlock) : Bool :=
  let waits := (d.camWaiting (8 + pipe) ctx).filter fun w => PipeBlock.enable w.block
  let slots := (d.pipe pipe).slots.filter (·.ctx != ctx)
  let ctxs := (slots.map (·.ctx) ++ waits.map (·.ctx)).eraseDups
  let rate (c : Nat) : Nat := (((slots.filter (·.ctx == c)).map PipeSlot.rate
    ++ (waits.filter (·.ctx == c)).map fun w => PipeSlot.rate ⟨0, c, w.block, 0, 0, 0⟩).max?).getD 0
  PipeBlock.enable b && (decide (4 ≤ ctxs.length)
    || decide (1200000000 < (ctxs.map rate).sum + PipeSlot.rate ⟨0, ctx, b, 0, 0, 0⟩))

/-- A block is accepted: it waits for its Frame Start, or takes effect at once without an active link; a pipe is raised to
its new floor first (R331, R332). -/
def Device.takeCam (d : Device) (now : Nat) (w : CamWait) : Device :=
  let d := if w.target < 8 then d
    else
      let floor := paceFor (((d.pipe (w.target - 8)).setSlot w.ctx w.block).slots.map PipeSlot.rate).sum
      let dom := 22 + w.target
      if (d.dom dom).pace < floor then d.setPaces now [(dom, floor)] else d
  ({ d with cam := { d.cam with waits := d.cam.waits ++ [w] } } : Device).resolveCam now

/-- CAMERA_SET (R255). -/
def execCameraSet (s : State) : Host.Outcome State Fault Refusal :=
  hostCmd 0x50 s fun now p d =>
    let target := (p.w 2).fld 3 0
    let ctx := p.id.ctx
    let block := (p.words.drop 3).take (p.len - 4)
    let common := decide (11 < target) || rsvBits (p.w 2) 63 4 || p.bad (if target < 8 then 3 else 93)
    if target < 8 then
      d.checked now p.id
        [(common || !portBlockOk (p.w 3) (p.w 4), stBadParam),
         (d.notServed 0x50 || d.camPending ctx target
            || portConflict (d.portSlots target ctx) ctx (p.w 3) (p.w 4), stRefusedState)]
        fun d => d.takeCam now ⟨some p.id, ctx, target, block⟩
    else
      d.checked now p.id
        [(common || !PipeBlock.ok block || (blockHandleWords block).any handleBad, stBadParam),
         ((blockHandles block).any (fun h => (d.byHandle h).isNone)
            || (blockWeaves block).any fun x => (d.weaveByHandle x.1).isNone, stStaleGen),
         (!d.blockDestOk block, stBadParam),
         (d.notServed 0x50 || d.camPending ctx target || d.pipeRefuses (target - 8) ctx block, stRefusedState)]
        fun d => d.takeCam now ⟨some p.id, ctx, target, block⟩

end Sys2Proof.Machine
end

