-- ==== Sys2Proof/Machine/Audio.lean ====
section
/-! DEFINITION. The PDM front end, its slots and the pre-roll ring (R255, R346–R356), and the start of a Tier 0 frame
(R357). -/

namespace Sys2Proof.Machine

/-- Length of an audio block (R349). -/
def blockNs : Nat := 10000000
/-- Blocks that restart a clock are GAP for this long (R351). -/
def clockGapNs : Nat := 2000000

/-! ### Front-end slots (R350) -/

/-- The front-end block: words 3 to 6 of AUDIO_SET. -/
abbrev AudBlock := List Word

namespace AudBlock
def w3 (b : AudBlock) : Word := wordAt b 0
def w4 (b : AudBlock) : Word := wordAt b 1
def enable (b : AudBlock) : Bool := b.w3.getLsbD 0
def rate (b : AudBlock) : Nat := b.w3.fld 2 1
def present (b : AudBlock) : Nat := b.w3.fld 15 8
def mask (b : AudBlock) : Nat := b.w3.fld 47 32
def path (b : AudBlock) : Nat := b.w4.fld 1 0
def buffers (b : AudBlock) : Nat := b.w4.fld 9 2
def knot (b : AudBlock) : Nat := b.w4.fld 21 10
def handle (b : AudBlock) : Word := BitVec.ofNat 64 (b.w4.fld 63 32)
def knotWeave (b : AudBlock) : Word := BitVec.ofNat 64 ((wordAt b 2).fld 31 0)
def offset (b : AudBlock) : Nat := (wordAt b 3).fld 37 0
/-- Fields that every enabled slot shares: PDM_RATE, HPF_EN, PRESENT. -/
def line (b : AudBlock) : Nat := b.w3.fld 15 1
/-- Fields whose change restarts the clock. -/
def clock (b : AudBlock) : Nat × Nat := (b.rate, b.present)
/-- Channels of a slot, ascending. -/
def channels (b : AudBlock) : List Nat := (List.range 16).filter fun c => bitOf b.mask c
/-- Bytes of a plane, a multiple of 128 (R352). -/
def plane (b : AudBlock) : Nat := match b.path with | 1 => 384 | 2 => 1920 | _ => 1024
/-- S. -/
def size (b : AudBlock) : Nat := b.channels.length * b.plane
/-- Fields lie in their ranges (R351). -/
def ok (b : AudBlock) : Bool :=
  b.rate != 3 && b.w3.fld 7 4 == 0 && b.w3.fld 31 16 == 0 && b.w3.fld 63 48 == 0
    && b.channels.all (fun c => bitOf b.present (c / 2)) && (!b.enable || b.mask != 0)
    && !(decide (2 ≤ b.path) && b.rate == 0) && b.buffers != 0 && b.w4.fld 31 22 == 0
    && (b.path != 0 || b.handle == 0) && (wordAt b 2).fld 63 32 == 0
    && b.offset % 128 == 0 && (wordAt b 3).fld 63 38 == 0
/-- The block writes buffers. -/
def writes (b : AudBlock) : Bool := b.enable && b.path != 0
end AudBlock

/-- Channels' pins: channels 2d and 2d + 1 are on PDM_DATd (R346). -/
def pinOf (c : Nat) : Nat := c / 2

/-- PRESENT of the enabled slots; 0 with none. -/
def Audio.present (a : Audio) : Nat := (a.slots.head?.map fun x => AudBlock.present x.words).getD 0
def Audio.clock (a : Audio) : Option (Nat × Nat) := a.slots.head?.map fun x => AudBlock.clock x.words

/-- The slot of a context. -/
def Audio.slotOf (a : Audio) (ctx : Nat) : Option AudSlot := a.slots.find? fun x => x.ctx == ctx

/-- The link follows the present pins; without a slot the clock is stopped and the link down, without an event (R347). -/
def Device.pdmLink (d : Device) (now : Nat) : Device :=
  let a := d.aud
  let pins := (List.range 8).foldl (fun (m : SMap Bool) i => m.set false i (bitOf a.present i && a.pins.get false i)) []
  let up := !pins.isEmpty
  let d := { d with aud := { a with pins := pins, link := up } }
  if up != a.link && !a.slots.isEmpty then d.raiseLink now 8 up else d

/-- A block takes or releases its context's slot at the start of block `w.block` (R351). -/
def Device.applyAud (d : Device) (now : Nat) (w : AudWait) : Device :=
  let a := d.aud
  let rest := a.slots.filter (·.ctx != w.ctx)
  let num := ((a.slotOf w.ctx).map (·.num)).getD (freeNum (a.slots.map (·.num)))
  let slots := if AudBlock.enable w.words then rest ++ [⟨num, w.ctx, w.words⟩] else rest
  let b := { a with slots := slots, waits := a.waits.filter (· != w) }
  let restart := b.clock.isSome && b.clock != a.clock
  ({ d with aud := { b with gapUntil := if restart then blockNs * w.block + clockGapNs else a.gapUntil } }).pdmLink now

/-- The context's slot has lost its allocation: the next reply of an AUDIO_SET reports it as released (R352). -/
def Device.audLost (d : Device) (ctx : Nat) : Bool :=
  (d.aud.slotOf ctx).any fun x => AudBlock.writes x.words && (d.byHandle (AudBlock.handle x.words)).isNone

/-- Word 3 of an AUDIO_SET's reply: a block number; how it reports a slot as released the spec does not say (log entry 71). -/
def Device.audReport (d : Device) (ctx n : Nat) : Word := if d.audLost ctx then d.freeWord else BitVec.ofNat 64 n

/-- The free value of such a report is taken. -/
def Device.spendReport (e d : Device) (ctx : Nat) : Device := if d.audLost ctx then e.tookFree else e

/-- Waits of blocks up to `k` take effect, each answered at its block's start with the block's number. -/
def Device.settleAud (d : Device) (now k : Nat) : Device :=
  forEach d (d.aud.waits.filter fun w => decide (w.block ≤ k)) fun d w =>
    match w.id with
    | some id => ((d.applyAud now w).answer now id stOk [d.audReport w.ctx w.block]).spendReport d w.ctx
    | none => d.applyAud now w

/-- The front end as it will stand once every block that waits has taken effect. -/
def Device.afterAudWaits (d : Device) : Audio := (forEach d d.aud.waits fun d w => d.applyAud 0 w).aud

/-- AUDIO_SET (R255, R351). -/
def execAudioSet (s : State) : Host.Outcome State Fault Refusal :=
  hostCmd 0x51 s fun now p d =>
    let b : AudBlock := (p.words.drop 3).take 4
    let ctx := p.id.ctx
    let a := d.byHandle b.handle
    let knots := b.writes && b.knot != 4095
    let weave := d.weaveByHandle b.knotWeave
    let others := d.afterAudWaits.slots.filter (·.ctx != ctx)
    d.checked now p.id
      [(p.bad 5 || p.w 2 != 0 || !b.ok || handleBad b.handle || handleBad b.knotWeave, stBadParam),
       ((b.writes && a.isNone) || (knots && weave.isNone), stStaleGen),
       ((b.writes && !d.destOk b.handle b.offset (b.buffers * b.size)) || (knots && weave.any fun w => decide (w.knots ≤ b.knot)),
         stBadParam),
       (d.notServed 0x51 || (d.aud.waits.any fun w => w.ctx == ctx && w.id.isSome)
          || (b.enable && (decide (4 ≤ others.length) || others.any fun x => AudBlock.line x.words != b.line)), stRefusedState)]
      fun d =>
        let wait (id : Option CmdId) : Device :=
          { d with aud := { d.aud with waits := d.aud.waits ++ [⟨id, ctx, b, now / blockNs + 1⟩] } }
        if d.aud.link then wait (some p.id)
        else ((wait none).answer now p.id stOk [d.audReport ctx (2 ^ 64 - 1)]).spendReport d ctx

/-! ### Pins (R347) -/

/-- The front end runs: RUN, HUSH and LISTEN. -/
def Device.earsOn (d : Device) : Bool :=
  !d.therm.tripped && (d.pwr.state == .run || d.pwr.state == .hush || d.pwr.state == .listen)

/-- A present pin's activity. While the clock is stopped, blocks whose start has passed first take effect. -/
def Device.pinLevel (d : Device) (now pin : Nat) (active : Bool) : Device :=
  if !d.earsOn then d
  else
    let d := if d.aud.slots.isEmpty then d.settleAud now (now / blockNs) else d
    if bitOf d.aud.present pin then
      ({ d with aud := { d.aud with pins := d.aud.pins.set false pin active } } : Device).pdmLink now
    else d

/-- PDM_PIN_ACTIVE: a present pin's level changes again. -/
def execPdmPinActive (pin : BitVec 3) (s : State) : Host.Outcome State Fault Refusal :=
  s.act fun now d => d.pinLevel now pin.toNat true

/-- PDM_PIN_INACTIVE: a present pin's level has not changed for 10 ms. -/
def execPdmPinInactive (pin : BitVec 3) (s : State) : Host.Outcome State Fault Refusal :=
  s.act fun now d => d.pinLevel now pin.toNat false

/-! ### ADPCM (R353) -/

/-- The 89 step sizes of IMA ADPCM. -/
def imaSteps : List Nat :=
  [7, 8, 9, 10, 11, 12, 13, 14, 16, 17, 19, 21, 23, 25, 28, 31, 34, 37, 41, 45, 50, 55, 60, 66, 73, 80, 88, 97, 107, 118]
  ++ [130, 143, 157, 173, 190, 209, 230, 253, 279, 307, 337, 371, 408, 449, 494, 544, 598, 658, 724, 796, 876, 963, 1060]
  ++ [1166, 1282, 1411, 1552, 1707, 1878, 2066, 2272, 2499, 2749, 3024, 3327, 3660, 4026, 4428, 4871, 5358, 5894, 6484]
  ++ [7132, 7845, 8630, 9493, 10442, 11487, 12635, 13899, 15289, 16818, 18500, 20350, 22385, 24623, 27086, 29794, 32767]

/-- The index table: the change of index by the code's low three bits. -/
def imaIndex (code : Nat) : Int := match code % 8 with | 4 => 2 | 5 => 4 | 6 => 6 | 7 => 8 | _ => -1

/-- One sample encoded: its code and the state after it. -/
def Adpcm.encode (s : Adpcm) (x : Int) : Nat × Adpcm :=
  let step := imaSteps.getD s.index 7
  let diff := (x - s.pred).natAbs
  let neg := decide (x < s.pred)
  let c4 := decide (step ≤ diff)
  let d4 := if c4 then diff - step else diff
  let c2 := decide (step / 2 ≤ d4)
  let d2 := if c2 then d4 - step / 2 else d4
  let c1 := decide (step / 4 ≤ d2)
  let delta : Int := (step / 8 + b2n c4 * step + b2n c2 * (step / 2) + b2n c1 * (step / 4) : Nat)
  let code := 8 * b2n neg + 4 * b2n c4 + 2 * b2n c2 + b2n c1
  (code, ⟨clampInt (-32768) 32767 (if neg then s.pred - delta else s.pred + delta),
    (clampInt 0 88 (s.index + imaIndex code)).toNat⟩)

/-- Samples encoded in order. -/
def Adpcm.run (s : Adpcm) : List Int → List Nat × Adpcm
  | [] => ([], s)
  | x :: xs => let (c, s) := s.encode x; let (cs, s) := s.run xs; (c :: cs, s)

/-- Codes two to a byte, the first in bits [3:0]. -/
def packCodes : List Nat → List Byte
  | a :: b :: r => BitVec.ofNat 8 (a + 16 * b) :: packCodes r
  | [a] => [BitVec.ofNat 8 a]
  | [] => []

/-- A channel block of captured samples (R354). -/
def channelBlock (s : Adpcm) (codes : List Nat) : List Byte :=
  leBytes 2 (s.pred % 65536).toNat ++ [BitVec.ofNat 8 s.index, 0, 0, 0, 0, 0] ++ packCodes codes

/-! ### The ring (R354, R355) -/

def lpSamples (lp : List (List (BitVec 16))) (c : Nat) : List Int := (lp.getD c []).map BitVec.toInt

/-- A channel's block in the ring, and its encoder's state after it; none where nothing carries over. -/
def Audio.ringBlock (a : Audio) (gap : Bool) (lp : List (List (BitVec 16))) (c : Nat) : List Byte × Option Adpcm :=
  if gap || !bitOf a.present (pinOf c) then (silentBlock 1, none)
  else if !a.pins.get false (pinOf c) then (silentBlock 2, none)
  else
    let s := a.adpcm.get {} c
    let (codes, s') := s.run (lpSamples lp c)
    (channelBlock s codes, some s')

/-- Blocks `n` to `k - 1` passed unheard: each is written as GAP. -/
def Audio.missed (a : Audio) (n k : Nat) : Audio :=
  if k ≤ n then a
  else if n + ringSlots ≤ k then { a with ring := allGap k, adpcm := [] }
  else { a with ring := (rangeFrom n (k - n)).foldl (fun r i => ringPut r i (gapSlot i)) a.ring, adpcm := [] }

/-- Samples kept for the features (R358). -/
def recentSamples : Nat := 512

/-- Block `k` enters the ring. -/
def Audio.capture (a : Audio) (k : Nat) (gap : Bool) (lp : List (List (BitVec 16))) : Audio :=
  let a := a.missed a.nextBlock k
  let bs := (List.range 16).map (a.ringBlock gap lp)
  let active := maskOf 16 fun c => bitOf a.present (pinOf c) && a.pins.get false (pinOf c) && !gap
  { a with
    nextBlock := k + 1
    ring := ringPut a.ring k (ringSlot k active gap (bs.map (·.1)))
    adpcm := (bs.zipIdx).foldl (fun (m : SMap Adpcm) x => m.set {} x.2 (x.1.2.getD {})) []
    recent := (List.range 16).foldl (fun (m : SMap (List Int)) c =>
      if bitOf a.present (pinOf c) then
        let l := a.recent.get [] c ++ lpSamples lp c
        m.set [] c (l.drop (l.length - recentSamples))
      else m) [] }

/-! ### Buffers (R352) -/

/-- A channel's plane of a slot's buffer, padded. -/
def AudBlock.planeBytes (b : AudBlock) (lp : List (List (BitVec 16))) (hq : List (List (BitVec 24))) (c : Nat) : List Byte :=
  let bs := match b.path with
    | 1 => (lp.getD c []).flatMap fun x => leBytes 2 x.toNat
    | 2 => (hq.getD c []).flatMap fun x => leBytes 4 (256 * x.toNat)
    | _ => (hq.getD c []).flatMap fun x => leBytes 2 (bf16.ofRat (decide (x.toInt < 0)) x.toInt.natAbs 1 (-23))
  padPlane bs

/-- A slot's buffer of block `k` goes to its allocation's home mere, and its knot is signalled. A block that comes without
the high-quality samples leaves a slot of that path unwritten. -/
def Device.writeAudio (d : Device) (now k : Nat) (lp : List (List (BitVec 16))) (hq : List (List (BitVec 24))) (x : AudSlot) : Device :=
  let b : AudBlock := x.words
  if !b.writes || (decide (2 ≤ b.path) && hq.isEmpty) then d
  else match d.byHandle b.handle with
    | none => d
    | some a =>
      let d := d.hubWrite now a (b.offset + k % b.buffers * b.size) 1000000 (b.channels.flatMap (b.planeBytes lp hq))
      d.signalWeave now b.knotWeave b.knot

/-! ### A Tier 0 frame starts (R357, R362) -/

/-- Features kept for each input (R358), and a frame of them that is missing. -/
def frameHistory : Nat := 100
def missingFrame : List Int := List.replicate 40 (-128)

/-- The plan allocations of a table end (R362). -/
def Device.endTable (d : Device) (now : Nat) (t : Option WakeTable) : Device :=
  match t with
  | none => d
  | some t => forEach d t.t1Slots fun d s => d.endAlloc now s

/-- The table that waits, or its release, takes effect: hold counts, scores and watches start anew. -/
def Device.takeTable (d : Device) (now : Nat) : Device :=
  match d.cas.next with
  | none => d
  | some t =>
    let d := d.endTable now d.cas.table
    { d with cas := { d.cas with table := t, next := none, scores := [], feats := [], holds := [], refractory := [], watches := [] } }

/-- The frame of block `k` starts, `missed` blocks after the last: missing frames enter the features, and stop the count of
consecutive frames. -/
def Device.startFrame (d : Device) (now k missed : Nat) (gap : Bool) : Device :=
  let d := d.takeTable now
  let miss := List.replicate (min missed frameHistory) missingFrame
  { d with cas := { d.cas with
    frameBlock := some k, gapFrame := gap
    holds := if missed = 0 then d.cas.holds else []
    feats := d.cas.feats.map fun e => (e.1, (miss ++ e.2).take frameHistory) } }

/-! ### A block completes (R349) -/

/-- A block of `n` channels with `k` samples each: what an event leaves out reads as zero (log entry 92). -/
def sizedBlock {w : Nat} (n k : Nat) (l : List (List (BitVec w))) : List (List (BitVec w)) :=
  (List.range n).map fun c => (List.range k).map fun i => (l.getD c []).getD i 0

/-- AUDIO_BLOCK_COMPLETE: the block that ended last enters the ring and, in RUN and HUSH, the slots' buffers; the Tier 0
engine starts its frame; blocks that waited for the next start take effect. With no slot enabled the clock is stopped. -/
def execAudioBlockComplete (lp : List (List (BitVec 16))) (hq : List (List (BitVec 24))) (s : State) : Host.Outcome State Fault Refusal :=
  s.act fun now d =>
    let lp := sizedBlock 16 160 lp
    let hq := if hq.isEmpty then [] else sizedBlock 16 480 hq
    let n := now / blockNs
    if !d.earsOn || n = 0 || n - 1 < d.aud.nextBlock then d
    else
      let k := n - 1
      let d := d.settleAud now k
      let d := if d.aud.slots.isEmpty then d
        else
          let gap := decide (blockNs * k < d.aud.gapUntil)
          let missed := k - d.aud.nextBlock
          let d := { d with aud := d.aud.capture k gap lp }
          let d := if d.hubServes then forEach d d.aud.slots fun d x => d.writeAudio now k lp hq x else d
          d.startFrame now k missed gap
      d.settleAud now n

/-! ### PREROLL_GET (R255, R356) -/

/-- The blocks of a span that ends at `e` and lasts `ms`: those the ring holds. -/
def Audio.span (a : Audio) (e ms : Nat) : List Nat :=
  if e = 0 then []
  else
    let first := max ((e - 1000000 * ms) / blockNs) (a.nextBlock - ringSlots)
    rangeFrom first ((e - 1) / blockNs + 1 - first)

/-- A channel block in the ring, as words. -/
def Audio.blockWords (a : Audio) (k c : Nat) : List Word :=
  bytesWords 11 (a.ring.getList 0 (k % ringSlots * ringSlotBytes + 8 + channelBytes * c) channelBytes)

/-- PREROLL_GET (R356). A span of which the ring holds nothing has no first sample: word 3 is then a free value. -/
def execPrerollGet (s : State) : Host.Outcome State Fault Refusal :=
  hostCmd 0x53 s fun now p d =>
    let mask := (p.w 2).fld 15 0
    let ms := (p.w 2).fld 29 16
    let e := (p.w 3).toNat
    let slot := d.aud.slotOf p.id.ctx
    d.checked now p.id
      [(p.bad 2 || mask == 0 || ms == 0 || decide (10000 < ms) || rsvBits (p.w 2) 63 30 || decide (now < e), stBadParam),
       (slot.all (fun x => mask &&& AudBlock.mask x.words != mask), stBadParam)]
      fun d =>
        let last := blockNs * d.aud.nextBlock
        let ks := d.aud.span (if e = 0 then last else min e last) ms
        let cs := (List.range 16).filter fun c => bitOf mask c
        let word3 := match ks with | k :: _ => BitVec.ofNat 64 (blockNs * k) | [] => d.freeWord
        let d' := if ks.isEmpty then d.tookFree else d
        d'.answer now p.id stOk
          (word3 :: mkWord [(mask, 0), (160 * ks.length, 16)] :: ks.flatMap fun k => cs.flatMap fun c => d.aud.blockWords k c)

end Sys2Proof.Machine
end

