-- ==== Sys2Proof/Machine/Dram.lean ====
section
/-! DEFINITION. The DRAM controllers (R268–R292): rank sets, refresh, skew windows, ECC and retirement, parity replay and
the change of rate. -/

namespace Sys2Proof.Machine

/-! ### Rank sets (R270, R275, R288) -/

def HalfDram.rank (x : HalfDram) (cs : Nat) : RankState := x.ranks.get .absent cs
def HalfDram.setRank (x : HalfDram) (cs : Nat) (r : RankState) : HalfDram := { x with ranks := x.ranks.set .absent cs r }

/-- Rank sets populated in a half. -/
def HalfDram.populated (x : HalfDram) : List Nat := (List.range 3).filter fun cs => x.rank cs != .absent
/-- The highest-numbered rank set: the spare where there is one (R270). -/
def HalfDram.last (x : HalfDram) : Nat := (x.populated.getLast?).getD 0

/-- The rank set that serves each range in turn. `spareUsed` is the rank set that the spare stands in for; while its copy
runs the old rank set stands here, and serves the pages not yet copied. -/
def HalfDram.ranges (x : HalfDram) : List Nat :=
  match x.spareUsed with
  | none => (List.range 3).filter fun cs => x.rank cs == .service || x.rank cs == .copying
  | some r => (x.populated.filter fun cs => cs != x.last && (cs == r || x.rank cs != .excluded)).map fun cs =>
      if cs = r ∧ x.rank cs ≠ .copying then x.last else cs

/-- A spare that no failure has taken. -/
def HalfDram.freeSpare (x : HalfDram) : Bool := (List.range 3).any fun cs => x.rank cs == .spare && x.spareUsed.isNone

/-- Corrected bursts of a rank set within 24 h of `now` (R287). -/
def HalfDram.recent (x : HalfDram) (now cs : Nat) : List Nat :=
  (x.ces.get [] cs).filter fun t => decide (now ≤ t + 86400000000000)

def Dram.ceLimit (x : Dram) : Nat := x.settings.fld 23 8

/-- First physical page of the range that a rank set serves, or beyond the ranges for an unused spare (R275). -/
def Device.rankBase (d : Device) (h cs : Nat) : Nat := (d.halfDram h).ranges.idxOf cs * d.dram.rankPages

/-- The rank set that a physical page is read from: pages copied to the spare lie there, and the pages beyond the ranges are an unused
spare's (R275, R288). -/
def Device.rankOfPage (d : Device) (h page : Nat) : Option Nat :=
  let x := d.halfDram h
  match x.ranges[page / d.dram.rankPages]? with
  | some cs => match x.copy with
    | some (r, n) => some (if r = cs ∧ page % d.dram.rankPages < n then x.last else cs)
    | none => some cs
  | none => (List.range 3).find? fun cs => x.rank cs == .spare && x.spareUsed.isNone

/-- The copy to the spare asks the background scrub ports to read and to write its next page (R278, R288). -/
def Device.askCopy (d : Device) (now h : Nat) : Device :=
  match (d.halfDram h).copy with
  | none => d
  | some (cs, n) =>
    let one := dramFirst h (d.rankBase h cs + n) portScrub 512
    d.requests now (one ++ one) (lstOf now (now + 10000000)) ⟨none, none, .copy h⟩

/-- A rank set has failed: retired to an unused spare, which starts its copy; an unused spare is lost; otherwise it stays
in service (R288, R289). -/
def Device.rankFailed (d : Device) (now h cs : Nat) : Device :=
  let x := d.halfDram h
  if x.rank cs == .spare && x.spareUsed.isNone then
    (d.modHalfDram h fun x => x.setRank cs .retired).deviceFault now fcSpareLost h cs
  else if x.rank cs == .service && x.freeSpare then
    ((d.modHalfDram h fun x => { x.setRank cs .copying with copy := some (cs, 0), spareUsed := some cs }).deviceFault now
      fcRanksetRetired h cs).askCopy now h
  else d

/-- A corrected burst is counted; the count that passes CE_LIMIT retires the rank set (R287). -/
def Device.corrected (d : Device) (now h cs : Nat) : Device :=
  let x := d.halfDram h
  let old := x.recent now cs
  let d := d.modHalfDram h fun x => { x with ces := x.ces.set [] cs (old ++ [now]) }
  let limit := d.dram.ceLimit
  if limit ≠ 0 ∧ old.length = limit then (d.deviceFault now fcRanksetCeLimit h cs).rankFailed now h cs else d

/-- Retired pages that a half lists (R287). -/
def retiredPages : Nat := 1024

/-- A physical page is poisoned and listed; a full list takes the device out of service (R287). -/
def Device.poisonPhys (d : Device) (now h page : Nat) (use : PageUse) : Device :=
  let d := match use with
    | .alloc p => { d with mem := { d.mem with poison := d.mem.poison.set false p.toNat true } }
    | _ => d
  let x := d.halfDram h
  if x.retired.contains page then d
  else if retiredPages ≤ x.retired.length then d.deviceOut now fcRetiredListFull
  else d.modHalfDram h fun x => { x with retired := x.retired ++ [page] }

/-- An uncorrectable burst of a page (R287, R290). -/
def Device.uncorrectable (d : Device) (now h page : Nat) (use : PageUse) : Device :=
  match use with
  | .reserve => if 2 ≤ (d.halfDram h).ranges.length then d else d.deviceOut now fcReserveLost
  | _ => d.poisonPhys now h page use

/-! ### ECC (R286) -/

/-- What the code makes of a codeword or burst. -/
inductive EccResult where | clean | corrected | uncorrectable
  deriving DecidableEq, Repr

/-- Nibbles of the folded value in which the location read differs from the one addressed. -/
def eccMoved (e : Ecc) : Nat := ((List.range 9).filter fun i => e.moved.toNat / 16 ^ i % 16 != 0).length

/-- Codeword `i` of a burst: an error of one nibble is corrected, one of two detected, as is a wrong location of one or two nibbles;
none where the code promises nothing. With x4 components a failed component shows as two nibbles of every codeword. -/
def eccCodeword (e : Ecc) (i : Nat) : Option EccResult :=
  let n := ((e.flips.getD i []).eraseDups).length
  match eccMoved e with
  | 0 => if n = 0 then some .clean else if n = 1 then some .corrected else if n = 2 then some .uncorrectable else none
  | 1 | 2 => some .uncorrectable
  | _ => none

/-- The worse of two results. -/
def EccResult.worse : EccResult → EccResult → EccResult
  | .uncorrectable, _ | _, .uncorrectable => .uncorrectable
  | .corrected, _ | _, .corrected => .corrected
  | .clean, .clean => .clean

/-- A burst of eight codewords, each result that the code leaves open being `free`. -/
def eccBurst (e : Ecc) (free : EccResult) : EccResult :=
  (List.range 8).foldl (fun r i => r.worse ((eccCodeword e i).getD free)) .clean

/-- A result the spec leaves open: free value (log entry 65). -/
def Device.freeEcc (d : Device) : EccResult :=
  match d.freeWord.toNat % 3 with | 0 => .clean | 1 => .corrected | _ => .uncorrectable

/-- The device when a burst has been judged: a free value is taken where some codeword needs one. -/
def Device.judged (d : Device) (e : Ecc) : Device :=
  if (List.range 8).any fun i => (eccCodeword e i).isNone then d.tookFree else d

/-- A corrected burst is written back (R287), as a write-back that serves no transfer. -/
def Device.rewrite (d : Device) (now h page burst : Nat) : Device :=
  d.request now [⟨.memPort, 6 * h + subOf page (burst / 2), 1, 1, some page⟩] (stewardLst now) ⟨none, none, .landing⟩

/-- DRAM_BURST_READ: a burst of a physical page is read, by patrol or on demand (R286–R290). -/
def execDramBurstRead (half : Half) (page : BitVec 22) (burst : BitVec 10) (ecc : Ecc) (use : PageUse) (s : State) :
    Host.Outcome State Fault Refusal :=
  s.act fun now d =>
    let h := halfNum half
    match d.rankOfPage h page.toNat with
    | none => d
    | some cs =>
      if !d.dram.serves then d
      else match eccBurst ecc d.freeEcc with
        | .clean => d.judged ecc
        | .corrected => ((d.judged ecc).rewrite now h page.toNat burst.toNat).corrected now h cs
        | .uncorrectable =>
          let spare := (d.halfDram h).rank cs == .spare && (d.halfDram h).spareUsed.isNone
          (if spare then d.judged ecc else (d.judged ecc).uncorrectable now h page.toNat use).rankFailed now h cs

/-- MIGRATION_PAGE_COPIED: the next page of a retired rank set's range has been copied to the spare, every transfer granted (R288). -/
def execMigrationPageCopied (half : Half) (ecc : Ecc) (use : PageUse) (s : State) : Host.Outcome State Fault Refusal :=
  s.act fun now d =>
    let h := halfNum half
    match (d.halfDram h).copy with
    | none => d
    | some (cs, n) =>
      if !d.dram.serves || d.asking (.copy h) then d
      else
        let page := d.rankBase h cs + n
        let d := match eccBurst ecc d.freeEcc with
          | .clean => d.judged ecc
          | .corrected => (d.judged ecc).corrected now h cs
          | .uncorrectable => (d.judged ecc).uncorrectable now h page use
        if n + 1 < d.dram.rankPages then (d.modHalfDram h fun x => { x with copy := some (cs, n + 1) }).askCopy now h
        else d.modHalfDram h fun x => { ((x.setRank cs .retired).setRank x.last .service) with copy := none }

/-- PATROL_READ: the patrol of a rank set asks the background scrub port for its next burst (R278, R287), one at a time; what it finds
is DRAM_BURST_READ's. -/
def execPatrolRead (half : Half) (cs : RankSet) (s : State) : Host.Outcome State Fault Refusal :=
  s.act fun now d =>
    let h := halfNum half
    let k := 3 * h + cs.val
    let r := (d.halfDram h).rank cs.val
    if d.dram.serves && r != .absent && r != .excluded && r != .retired && !d.asking (.patrol k) then
      let n := d.dram.patrol.get 0 k
      let page := d.rankBase h cs.val + n / 1024
      let d := { d with dram := { d.dram with patrol := d.dram.patrol.set 0 k ((n + 1) % (d.dram.rankPages * 1024)) } }
      d.request now [⟨.memPort, 6 * h + subOf page (n % 1024 / 2), portScrub, 1, some page⟩] (lstOf now (now + 10000000))
        ⟨none, none, .patrol k⟩
    else d

/-! ### Refresh, calibration, mode registers (R281, R282) -/

/-- Nothing asks a subchannel's port. -/
def Device.portIdle (d : Device) (sc : Nat) : Bool := !d.arb.reqs.any fun r => r.at_ .memPort sc

/-- SAME_BANK_REFRESH: a bank index that owes a refresh gets it while its port is idle, or when the refresh is the nearest request there
(R278, R281). -/
def execSameBankRefresh (sc : Subch) (bank : BitVec 2) (s : State) : Host.Outcome State Fault Refusal :=
  s.act fun now d =>
    let i := sc.val
    if !d.dram.serves || (d.sub i).stopped now then d
    else match (d.refreshReqs now i).find? fun r => r.job.what == .refresh bank.toNat with
      | none => d
      | some r => if d.portIdle i || d.nextReq now .memPort i == some r then d.take now r else d

/-- ns between the ZQ calibrations of a rank set, and before that limit when one takes the port (R281). -/
def zqNs : Nat := 128000000
def zqLeadNs : Nat := 200

/-- ZQ_CALIBRATION of a rank set: in idle time of its half's ports, or as its limit nears. -/
def execZqCalibration (half : Half) (cs : RankSet) (s : State) : Host.Outcome State Fault Refusal :=
  s.act fun now d =>
    let h := halfNum half
    let k := 3 * h + cs.val
    let idle := (List.range 6).all fun i => d.portIdle (6 * h + i)
    if d.dram.serves && (d.halfDram h).rank cs.val != .absent && (idle || decide (d.dram.zqAt.get 0 k + zqNs - zqLeadNs ≤ now)) then
      { d with dram := { d.dram with zqAt := d.dram.zqAt.set 0 k now } }
    else d

/-- MR4_POLL: the interval a rank set indicates, read every 16 ms; the shortest on the subchannel applies. -/
def execMr4Poll (sc : Subch) (cs : RankSet) (interval : Nat) (s : State) : Host.Outcome State Fault Refusal :=
  s.act fun now d =>
    let at_ := (d.sub sc.val).mr4At.get 0 cs.val
    if d.dram.serves && (d.halfDram (sc.val / 6)).rank cs.val != .absent && (at_ == 0 || decide (at_ + 16000000 ≤ now)) then
      d.modSub sc.val fun x =>
        let want := x.mr4Want.set 0 cs.val interval
        { x with mr4At := x.mr4At.set 0 cs.val now, mr4Want := want, interval := ((want.map (·.2)).min?).getD 0 }
    else d

/-! ### Channel skew (R280) -/

/-- Bytes of a second that are 10 % of a half's peak of 153.6 GB/s. -/
def skewBytes : Nat := 15360000000

/-- One subchannel's part of a skew window: the count of windows in a row, and the event at the tenth and then every 60 s. -/
def Device.skewOne (d : Device) (now sc bursts total : Nat) : Device :=
  if bursts * 100 > 40 * total && total * 64 > skewBytes then
    let x := d.sub sc
    let n := x.skewRuns + 1
    let since := if x.skewRuns = 0 then now - 1000000000 else x.skewSince
    let fire := n == 10 || (decide (10 < n) && decide (x.skewRaised + 60000000000 ≤ now))
    let d := d.modSub sc fun x => { x with skewRuns := n, skewSince := since, skewRaised := if fire then now else x.skewRaised }
    if fire then d.raise now 8 0x0070 (mkWord [(sc, 0), (bursts * 100 / total, 8)]) (BitVec.ofNat 64 ((now - since) / 1000000)) else d
  else d.modSub sc fun x => { x with skewRuns := 0, skewSince := 0 }

/-- SKEW_WINDOW: a window of 1 s ends with the bursts of a half's six subchannels; one left out carried none (log entry 92). -/
def execSkewWindow (half : Half) (bursts : List Nat) (s : State) : Host.Outcome State Fault Refusal :=
  s.act fun now d =>
    let bursts := (List.range 6).map fun i => bursts.getD i 0
    if d.dram.trained then
      forEach d bursts.zipIdx fun d x => d.skewOne now (6 * halfNum half + x.2) x.1 bursts.sum
    else d

/-! ### Parity (R291, R292) -/

/-- Length of an alert recovery, and the time after its end in which an alert is a failed replay. -/
def recoveryNs : Nat := 600
def replayGuardNs : Nat := 10000

/-- A recovery of a subchannel runs, or ended within 10 µs. -/
def SubDram.recovering (x : SubDram) (now : Nat) : Bool := x.alertAt.isSome && decide (now ≤ x.replayEnd + replayGuardNs)

/-- A recovery starts, or starts over: nothing is issued for its length, and every buffered command within the alert window is
reissued (R291). -/
def Device.replay (d : Device) (now sc : Nat) (failed : Nat) : Device :=
  d.modSub sc fun x => { x with
    alertAt := some now, replays := failed, replayEnd := now + recoveryNs
    replay := x.retry.filter fun c => decide (now ≤ c.at_ + d.dram.kit.alertNs) }

/-- PARITY_ALERT: a recovery begins, where the components offer parity. An alert during one is REPLAY_FAIL's. -/
def execParityAlert (sc : Subch) (s : State) : Host.Outcome State Fault Refusal :=
  s.act fun now d =>
    if d.dram.serves && d.dram.kit.parity && !(d.sub sc.val).recovering now then d.replay now sc.val 0 else d

/-- A replay has failed: the controller replays again, and the third of one recovery fails the rank set (R292). -/
def Device.replayFailed (d : Device) (now sc cs : Nat) : Device :=
  let n := (d.sub sc).replays + 1
  if n < 3 then d.replay now sc n
  else
    let d := d.modSub sc fun x => { x with alertAt := none, replays := 0, replay := [] }
    (d.modHalfDram (sc / 6) fun x => { x with failed := x.failed.set false cs true }).rankFailed now (sc / 6) cs

/-- The rank set that the oldest command of a replay addressed. -/
def Device.replayRank (d : Device) (sc : Nat) : Option Nat :=
  (((d.sub sc).replay.head?).bind fun c => c.req.page).bind fun p => d.rankOfPage (sc / 6) p

/-- REPLAY_FAIL: the alert recurs. The failure is charged to the rank set of the oldest command of the replay; where that command
addressed no page, to the one reported. -/
def execReplayFail (sc : Subch) (cs : RankSet) (s : State) : Host.Outcome State Fault Refusal :=
  s.act fun now d =>
    if d.dram.serves && d.dram.kit.parity && (d.sub sc.val).recovering now then
      d.replayFailed now sc.val ((d.replayRank sc.val).getD cs.val)
    else d

/-! ### The change of rate (R285) -/

/-- FREQ_CHANGE_DRAINED: the last burst in flight is complete; refresh debts are paid and every rank set enters self-refresh. -/
def execFreqChangeDrained (s : State) : Host.Outcome State Fault Refusal :=
  s.act fun now d =>
    match d.dram.freq with
    | some (t, false) =>
      if d.arb.holders.any fun h => h.site == .memPort then d
      else
        let d := d.payAll now
        { d with dram := { d.dram with freq := some (t, true), selfRefresh := true } }
    | _ => d

/-- Every rank set is calibrated. -/
def Device.calibrateAll (d : Device) (now : Nat) : Device :=
  let ks := [0, 1].flatMap fun h => ((d.halfDram h).populated).map fun cs => 3 * h + cs
  { d with dram := { d.dram with zqAt := setAll 0 d.dram.zqAt ks now } }

/-- Self-refresh is left: the debts count from now. -/
def Device.exitSelfRefresh (d : Device) (now : Nat) : Device :=
  if d.dram.selfRefresh then { d with dram := { d.dram with selfRefresh := false, refreshFrom := now } } else d

/-- FREQ_CHANGE_DONE: with the other timing set current, self-refresh left and every rank set calibrated, the ports are released. The
first parity alert of the exit repeated it; each further one is a failed replay of its rank set (R292). -/
def execFreqChangeDone (alerts : List (Subch × RankSet)) (s : State) : Host.Outcome State Fault Refusal :=
  s.act fun now d =>
    match d.dram.freq with
    | some (_, true) =>
      let d := (({ d with dram := { d.dram with freq := none, low := !d.dram.low } } : Device).exitSelfRefresh now).calibrateAll now
      forEach d (if d.dram.kit.parity then alerts.drop 1 else []) fun d a => d.replayFailed now a.1.val a.2.val
    | _ => d

/-! ### Training (R269–R274) -/

/-- The settings of the board record, or their reset values where it holds no valid block (R272). -/
def Device.boardSettings (d : Device) : Word := match d.peat.goodCopy with
  | some c => wordAt c.board 1
  | none => Dram.init.settings

/-- A half holds a spare under SPARE_POLICY with `n` rank sets populated (R270); 11 is reserved. -/
def spareOf (policy n : Nat) : Bool :=
  match policy with
  | 1 => decide (2 ≤ n)
  | 2 => false
  | _ => n == 3

/-- Pages of a rank set in each half (R268): 24 GiB or 48 GiB. -/
def rankPagesOf : DramParts → Nat
  | .x8g8 => 393216
  | .x8g16 | .x4g8 => 786432

/-- The rank sets of a half after training; CS0 to `last` are populated. -/
def HalfDram.trained (x : HalfDram) (last policy : Nat) (excluded : List Nat) : HalfDram :=
  let x := { x with ranks := [] }
  let pop := List.range (last + 1)
  let spare := if spareOf policy pop.length then pop.getLast? else none
  let x := pop.foldl (fun (x : HalfDram) cs =>
    x.setRank cs (if excluded.contains cs then .excluded else if some cs = spare then .spare else .service))
    { x with copy := none, spareUsed := none, failed := [] }
  match spare with
  | none => x
  | some sp =>
    match (pop.filter fun cs => cs != sp && excluded.contains cs).head? with
    | some cs => if excluded.contains sp then x else { x.setRank sp .service with spareUsed := some cs }
    | none => x

/-- A populated rank set passes at a rate; one without a result passes at every rate (log entry 65). -/
def rankPasses (results : List RankResult) (h cs : Nat) (r : FullRate) : Bool :=
  match results.find? fun x => halfNum x.half == h && x.cs.val == cs with
  | some x => x.rates.contains r
  | none => true

/-- MT/s of a full rate, and of the low point (R271). -/
def rateMts : FullRate → Nat
  | .r6400 => 6400 | .r5600 => 5600 | .r4800 => 4800
def lowMts : Nat := 3200

/-- The full rates tried under RATE_CAP, fastest first (R272, R273). -/
def ratesTried (cap : Nat) : List FullRate :=
  match cap with | 1 => [.r5600, .r4800] | 2 => [.r4800] | _ => [.r6400, .r5600, .r4800]

/-- DRAM is trained (R273): population; the rank sets that fail at 4,800 MT/s, or at the low point, are excluded (R274); the full rate
is the highest at which every other passes; both timing sets are stored. -/
def Device.dramTrained (d : Device) (now : Nat) (popOk : Bool) (kit : DramKit) (last : Nat) (results : List RankResult)
    (lowFails : List (Half × RankSet)) : Device :=
  let set := d.boardSettings
  let pop := List.range (last + 1)
  let ex (h : Nat) : List Nat := pop.filter fun cs =>
    !rankPasses results h cs .r4800 || lowFails.any fun e => halfNum e.1 == h && e.2.val == cs
  let all (r : FullRate) : Bool := [0, 1].all fun h => pop.all fun cs => (ex h).contains cs || rankPasses results h cs r
  let rate := ((ratesTried (set.fld 1 0)).find? all).getD .r4800
  let d := { d with dram := { d.dram with
    settings := set, rankPages := rankPagesOf kit.parts, rate := rate, low := false, selfRefresh := false, trained := true, subs := []
    zqAt := [], freq := none, fullSet := some (rateMts rate), lowSet := some lowMts, kit := kit, refreshFrom := now } }
  let d := d.modHalfDram 0 fun x => x.trained last (set.fld 7 6) (ex 0)
  let d := d.modHalfDram 1 fun x => x.trained last (set.fld 7 6) (ex 1)
  let d := d.calibrateAll now
  let d := forEach d [0, 1] fun d h => forEach d (ex h) fun d cs => d.deviceFault now fcRanksetExcluded h cs
  if !popOk then (d.deviceFault now fcMemPopulation 0 0).deviceOut now fcMemPopulation
  else if (d.halfDram 0).ranges.isEmpty || (d.halfDram 1).ranges.isEmpty then d.deviceOut now fcRanksetExcluded
  else if [0, 1].any (fun h => decide (retiredPages ≤ (d.halfDram h).retired.length)) then d.deviceOut now fcRetiredListFull
  else d

end Sys2Proof.Machine
end

