-- ==== Sys2Proof/Machine/Gating.lean ====
section
/-! DEFINITION. What a change of power state gates and keeps (R177, R345, R370, R372, R377, R418), and how a transition's
hop begins. -/

namespace Sys2Proof.Machine

/-! ### Scans end (R418) -/

/-- A running or queued scan is answered FAULTED: word 3 all ones, word 4 the blocks completed, which for a running scan
are a free value. -/
def Device.endScan (d : Device) (now : Nat) (s : Scan) (runs : Bool) : Device :=
  let n := if runs then d.freeWord.toNat % (s.len / 64 + 1) else 0
  let d := if runs then d.tookFree else d
  d.answer now s.id stFaulted [BitVec.ofNat 64 (2 ^ 64 - 1), BitVec.ofNat 64 n]

/-- Every running and queued scan ends. -/
def Device.endScans (d : Device) (now : Nat) : Device :=
  let running := d.hub.scanRun.filterMap (·.2)
  let queued := d.hub.scanQ.flatMap (·.2)
  let d := { d with hub := { d.hub with scanRun := [], scanQ := [] } }
  let d := { d with arb := { d.arb with reqs := d.arb.reqs.filter fun r => match r.job.what with | .scan _ => false | _ => true } }
  let d := forEach d running fun d s => d.endScan now s true
  forEach d queued fun d s => d.endScan now s false

/-! ### Meres, flash and pipes are left (R177, R345) -/

/-- Every dirty line is written back, a PLAIT page encoded; staged pages keep their bits (R174, R175). -/
def Device.writeAllBack (d : Device) (now : Nat) : Device :=
  let d := forEach d ((d.mem.dirty.map (·.1 / 512)).eraseDups) fun d pg => match d.ownerOf pg with
    | some (_, a) => if flagPlait a.flags then d.encodeHome now a pg else d
    | none => d
  { d with mem := { d.mem with dirty := [], dirtyPages := d.mem.staged } }

/-- The meres lose their contents. -/
def Mem.gateMeres (m : Mem) : Mem := { m with cached := [], full := [], fills := [], window := [] }

/-- Erases under way on every channel are ended. -/
def Device.endErases (d : Device) : Device := d.modPeat fun p => [0, 1, 2, 3].foldl (fun p c => p.stopErase c) p

/-- RUN or HUSH is left for LISTEN. -/
def Device.leaveFabric (d : Device) (now : Nat) : Device :=
  let d := ((d.endScans now).stopPipes now).writeAllBack now
  ({ d with mem := d.mem.gateMeres } : Device).endErases

/-! ### Cores and domains (R370) -/

/-- Cores whose bundles a state gates. -/
def gatedCores (p : Power) : List Nat :=
  match p with | .run => [] | .hush => rangeFrom 4 60 | _ => List.range 64

/-- A gated core keeps nothing; its dispatch generation is its partition's to advance. -/
def Core.gated (k : Core) : Core := { Core.init with gen := k.gen }

/-- A transfer ends as a state gates cores: it belongs to one of them, or, where the state gates the fabric, to the fabric, the meres or
the hub's engines. Work of the flash channels and of DRAM itself waits. -/
def Xfer.gated (x : Xfer) (p : Power) : Bool :=
  p != .run && p != .hush && match x with
    | .msg _ | .mover _ _ | .fill _ _ | .peatRead _ | .landing | .hub | .pipe _ | .steward => true
    | _ => false

/-- The requests and holders that outlast a state's gating, with the messages that do. -/
def Arb.gated (x : Arb) (p : Power) (gone : List Nat) (msgs : List Msg) : Arb :=
  let stays (j : Job) : Bool := !j.what.gated p && !j.core.any gone.contains && match j.what with
    | .msg id => msgs.any (·.id == id)
    | _ => true
  { x with reqs := x.reqs.filter fun r => stays r.job, holders := x.holders.filter fun h => stays h.job }

/-- The cores that a state gates lose their contents, with what they had in flight. -/
def Device.gateCores (d : Device) (p : Power) : Device :=
  let gone := gatedCores p
  let d := forEach d gone fun d c => d.modCore c Core.gated
  let msgs := d.fab.msgs.filter fun m => !gone.contains m.src && !gone.contains m.dst
  { d with
    fab := { d.fab with knotOps := d.fab.knotOps.filter fun o => !gone.contains o.core, msgs := msgs }
    arb := d.arb.gated p gone msgs
    pwr := { d.pwr with scoutLost := d.pwr.scoutLost || gone.contains 0 } }

/-- A domain is powered down. -/
def DomSt.gated (x : DomSt) : DomSt := { x with pace := 0, on := false, monitors := [], atMaxSince := none }

/-- The domains that a state gates are powered down. -/
def Device.gateDomains (d : Device) (p : Power) : Device :=
  forEach d (domains.filter fun i => !domainIn p i) fun d i => d.modDom i DomSt.gated

/-- The pace of a domain in a state (R370, R377). -/
def Device.statePace (d : Device) (p : Power) (i : Nat) : Nat :=
  match p with
  | .run => d.goal i (d.setOf i)
  | .hush => if 30 ≤ i ∧ i < 34 then d.floorOf i else min 2 (d.capOf i)
  | _ => 0

/-! ### Rails (R17, R18, R377) -/

/-- A rail is written the voltage it now needs, where nothing else moves it. -/
def Device.commandRail (d : Device) (now r : Nat) : Device :=
  let mv := d.needMv r [] (d.rail r).offset
  if (d.rail r).trans.isSome || ((d.rail r).mv = mv && (d.rail r).cmd = mv) then d
  else d.modRail r fun x => { x with cmd := mv, trans := some ⟨false, [], [], mv, .settling, now⟩ }

/-- The rails are lowered to what a state needs: first the paces, then the voltages. -/
def Device.lowerRails (d : Device) (now : Nat) (p : Power) : Device :=
  let d := d.setPaces now ((domains.filter fun i => domainIn p i && (d.dom i).on).map fun i => (i, d.statePace p i))
  forEach d [0, 1, 2] fun d r => d.commandRail now r

/-- The rails are raised to what a state needs, and its domains powered at their paces. -/
def Device.raiseRails (d : Device) (now : Nat) (p : Power) : Device :=
  forEach d [0, 1, 2] fun d r =>
    let ts := ((domainsOn r).filter fun i => domainIn p i && (!(d.dom i).on || (d.dom i).pace != d.statePace p i)).map
      fun i => (i, d.statePace p i)
    let mv := d.needMv r [] (d.rail r).offset
    if ts.isEmpty && mv == (d.rail r).mv && mv == (d.rail r).cmd then d else d.paceRequest now r ⟨true, false, ts⟩

/-! ### Hops (R372) -/

/-- The POWER_STATE that asked for the transition is answered: the state reached and the ns since it was asked (R256). -/
def Device.answerTrans (d : Device) (now : Nat) : Device :=
  match d.pwr.trans with
  | none => d
  | some t => match t.id with
    | none => d
    | some id =>
      ({ d with pwr := { d.pwr with trans := some { t with id := none } } } : Device).answer now id stOk
        [BitVec.ofNat 64 t.to_.num, BitVec.ofNat 64 (now - t.asked)]

/-- A boost that runs is over. -/
def Device.boostOver (d : Device) (now : Nat) : Device :=
  if d.pace.boostStart.isSome then { d with pace := { d.pace with boostStart := none, boostEnd := some now } } else d

/-- The next hop of the transition starts. One that ends in EMBER or OFF is answered as the port leaves service. -/
def Device.startHop (d : Device) (now : Nat) : Device :=
  match d.pwr.trans with
  | none => d
  | some t =>
    let a := d.pwr.state
    let b := a.hop t.to_
    let d : Device := if b = .ember then d.answerTrans now else d
    let d : Device := if b = .listen ∧ (a = .run ∨ a = .hush) then d.leaveFabric now else d
    let d := { d with pwr := { d.pwr with trans := d.pwr.trans.map fun (t : Trans) => { t with started := some now } } }
    let d : Device := if a = .run then d.boostOver now else d
    let d := (d.gateDomains b).gateCores b
    let d := if (a = .run ∧ b = .hush) ∨ (a = .hush ∧ b = .run) then { d with dram := { d.dram with freq := some (now, false) } } else d
    if a.lowers b then d.lowerRails now b else d.raiseRails now b

/-- A transition is asked for: one that raises the state starts at once, one that lowers it waits under R33. -/
def Device.askTransition (d : Device) (now : Nat) (to_ : Power) (id : Option CmdId) : Device :=
  let d := { d with pwr := { d.pwr with trans := some ⟨to_, id, now, none, false⟩ } }
  if d.pwr.state.lowers to_ then d else d.startHop now

/-- A transition under way, or waiting, raises the state. -/
def Device.rising (d : Device) : Bool := d.pwr.trans.any fun t => !d.pwr.state.lowers t.to_

end Sys2Proof.Machine
end

