-- ==== Sys2Proof/Machine/Cascade.lean ====
section
/-! DEFINITION. The Tier 0 engine and the wake cascade (R255, R357–R369): WAKE_SET, frames and their scores, wake rules,
motion watches, Tier 1 runs. -/

namespace Sys2Proof.Machine

/-! ### Program images (R360, R361) -/

structure T0Layer where
  kind : Nat
  relu : Nat
  kernel : Nat
  stride : Nat
  inLen : Nat
  inCh : Nat
  outCh : Nat
  wOff : Nat
  bOff : Nat
  mant : Nat
  exp : Nat

structure T0Prog where
  input : Nat
  frames : Nat
  base : Nat
  scores : Nat
  layers : Nat
  off : Nat

/-- The layer record at an image offset. -/
def t0Layer (img : List Byte) (o : Nat) : T0Layer :=
  ⟨leAt img o 1, leAt img (o + 1) 1, leAt img (o + 2) 1, leAt img (o + 3) 1, leAt img (o + 4) 2, leAt img (o + 6) 2,
    leAt img (o + 8) 2, leAt img (o + 12) 4, leAt img (o + 16) 4, leAt img (o + 20) 2, leAt img (o + 22) 1⟩

/-- Program record `p`. -/
def t0Prog (img : List Byte) (p : Nat) : T0Prog :=
  let o := 32 + 16 * p
  ⟨leAt img o 1, leAt img (o + 1) 1, leAt img (o + 2) 1, leAt img (o + 3) 1, leAt img (o + 4) 1, leAt img (o + 8) 4⟩

def t0Programs (img : List Byte) : Nat := leAt img 6 1
def t0Length (img : List Byte) : Nat := leAt img 8 4
def t0Progs (img : List Byte) : List T0Prog := (List.range (t0Programs img)).map (t0Prog img)

/-- Shape of a program's input: LEN and CH. -/
def T0Prog.shape (p : T0Prog) : Nat × Nat := if p.input < 17 then (p.frames, 40) else (1, 1024)
def T0Prog.layerAt (p : T0Prog) (img : List Byte) (i : Nat) : T0Layer := t0Layer img (p.off + 32 * i)

def T0Layer.outLen (l : T0Layer) : Nat := if l.kind = 0 then 1 else (l.inLen - l.kernel) / l.stride + 1
/-- int8 weights of a layer. -/
def T0Layer.weights (l : T0Layer) : Nat :=
  match l.kind with
  | 0 => l.outCh * (l.inLen * l.inCh)
  | 1 => l.outCh * l.kernel * l.inCh
  | 2 => l.kernel * l.inCh
  | _ => 0
/-- Multiply–accumulates of a layer in one frame. -/
def T0Layer.macs (l : T0Layer) : Nat := if l.kind = 0 then l.weights else l.outLen * l.weights

/-- A layer takes an input of this shape, and its tables lie within an image of `n` bytes. -/
def T0Layer.ok (l : T0Layer) (n len ch : Nat) : Bool :=
  decide (l.kind ≤ 3) && decide (l.relu ≤ 1) && decide (1 ≤ l.kernel) && decide (l.kernel ≤ 9) && (l.kind != 0 || l.kernel == 1)
    && decide (1 ≤ l.stride) && decide (l.stride ≤ 4) && l.inLen == len && l.inCh == ch && decide (l.kernel ≤ l.inLen)
    && l.outCh != 0 && (decide (l.kind < 2) || l.outCh == l.inCh)
    && (l.kind == 3 || (decide (l.wOff + l.weights ≤ n) && decide (l.bOff + 4 * l.outCh ≤ n)))

/-- The layers from `i` on agree, and the last gives the scores. -/
def layersOk (p : T0Prog) (img : List Byte) : Nat → Nat → Nat → Nat → Bool
  | 0, _, len, ch => len == 1 && ch == p.scores
  | n + 1, i, len, ch =>
    let l := p.layerAt img i
    l.ok (t0Length img) len ch && layersOk p img n (i + 1) l.outLen l.outCh

def T0Prog.ok (p : T0Prog) (img : List Byte) : Bool :=
  decide (p.input ≤ 18) && decide (1 ≤ p.frames) && decide (p.frames ≤ 100) && (decide (p.input < 17) || p.frames == 1)
    && decide (1 ≤ p.scores) && decide (p.scores ≤ 4) && decide (p.base + p.scores ≤ 16)
    && decide (1 ≤ p.layers) && decide (p.layers ≤ 32) && p.off % 8 == 0 && decide (p.off + 32 * p.layers ≤ t0Length img)
    && layersOk p img p.layers 0 p.shape.1 p.shape.2

/-- Multiply–accumulates of a program. -/
def T0Prog.macs (p : T0Prog) (img : List Byte) : Nat := ((List.range p.layers).map fun i => (p.layerAt img i).macs).sum

/-- Score ranges of programs do not overlap. -/
def scoresApart : List T0Prog → Bool
  | [] => true
  | p :: r => r.all (fun q => decide (p.base + p.scores ≤ q.base) || decide (q.base + q.scores ≤ p.base)) && scoresApart r

/-- Bytes of program SRAM, and multiply–accumulates of a frame (R357). -/
def t0Bytes : Nat := 589824
def t0Macs : Nat := 8000000

/-- Header and LENGTH of an image in an allocation of `size` bytes. -/
def t0HeaderOk (h : List Byte) (size : Nat) : Bool :=
  leAt h 0 4 == 0x74308840 && leAt h 4 2 == 1 && decide (1 ≤ t0Programs h) && decide (t0Programs h ≤ 4)
    && t0Length h % 8 == 0 && decide (32 + 16 * t0Programs h ≤ t0Length h) && decide (t0Length h ≤ t0Bytes)
    && decide (t0Length h ≤ size)

/-- CHECK, programs and their total work. -/
def t0ImageOk (img : List Byte) : Bool :=
  leAt img 12 4 == crc32c (img.take 12 ++ [0, 0, 0, 0] ++ img.drop 16)
    && (t0Progs img).all (·.ok img) && scoresApart (t0Progs img)
    && decide (((t0Progs img).map (·.macs img)).sum ≤ t0Macs)

/-! ### Programs run (R360, R361) -/

/-- A tensor: LEN rows of CH values. -/
abbrev Tensor := List (List Int)
def Tensor.at_ (x : Tensor) (i c : Nat) : Int := (x.getD i []).getD c 0

/-- The sum of products of output row `o`, channel `c`. -/
def T0Layer.dot (l : T0Layer) (img : List Byte) (x : Tensor) (o c : Nat) : Int :=
  let wt (n : Nat) : Int := signedOf 8 (leAt img (l.wOff + n) 1)
  match l.kind with
  | 0 => ((List.range l.inLen).flatMap fun i => (List.range l.inCh).map fun ch =>
      x.at_ i ch * wt ((c * l.inLen + i) * l.inCh + ch)).sum
  | 1 => ((List.range l.kernel).flatMap fun k => (List.range l.inCh).map fun ch =>
      x.at_ (o * l.stride + k) ch * wt ((c * l.kernel + k) * l.inCh + ch)).sum
  | _ => ((List.range l.kernel).map fun k => x.at_ (o * l.stride + k) c * wt (k * l.inCh + c)).sum

/-- One output before its last limit. -/
def T0Layer.value (l : T0Layer) (img : List Byte) (x : Tensor) (o c : Nat) : Int :=
  let y : Int :=
    if l.kind = 3 then (((List.range l.kernel).map fun k => x.at_ (o * l.stride + k) c).max?).getD 0
    else
      let sum := clampInt (-(2 ^ 31)) (2 ^ 31 - 1) (l.dot img x o c + signedOf 32 (leAt img (l.bOff + 4 * c) 4))
      rneShift (sum * l.mant) ((l.exp : Int) - 142)
  if l.relu = 1 then max 0 y else y

/-- A layer's output, limited to int8, or to int16 in the last layer. -/
def T0Layer.run (l : T0Layer) (img : List Byte) (last : Bool) (x : Tensor) : Tensor :=
  let lim : Int := if last then 32768 else 128
  (List.range l.outLen).map fun o => (List.range l.outCh).map fun c => clampInt (-lim) (lim - 1) (l.value img x o c)

/-- A program's scores for an input. -/
def T0Prog.run (p : T0Prog) (img : List Byte) (x : Tensor) : List Int :=
  ((List.range p.layers).foldl (fun x i => (p.layerAt img i).run img (i + 1 == p.layers) x) x).headD []

/-! ### The table (R362) -/

def WakeTable.w (t : WakeTable) (i : Nat) : Word := wordAt t.words (i - 3)
def WakeTable.t1Handle (t : WakeTable) : Word := BitVec.ofNat 64 ((t.w 3).fld 63 32)
def WakeTable.t1Entry (t : WakeTable) : Nat := (t.w 4).fld 15 0
def WakeTable.t1Limit (t : WakeTable) : Nat := (t.w 4).fld 31 16
def WakeTable.linger (t : WakeTable) : Nat := (t.w 4).fld 47 32
def WakeTable.autoRun (t : WakeTable) : Bool := (t.w 4).getLsbD 48
def WakeTable.rules (t : WakeTable) : List Word := t.words.drop 3
def WakeTable.decimate (t : WakeTable) : Nat := (t.w 5).fld 23 16
def WakeTable.alphaShift (t : WakeTable) : Nat := (t.w 5).fld 27 24
def WakeTable.zoneDelta (t : WakeTable) : Nat := (t.w 5).fld 43 32

/-- Fields of a rule (R363). -/
def ruleScore (r : Word) : Nat := r.fld 4 0
def ruleTier (r : Word) : Nat := r.fld 7 6
def ruleCause (r : Word) : Nat := r.fld 15 8
def ruleHold (r : Word) : Nat := r.fld 37 32
def ruleRefractory (r : Word) : Nat := r.fld 53 38
/-- The rule is satisfied by a score. -/
def ruleMet (r : Word) (score : Int) : Bool :=
  let limit := signedOf 16 (r.fld 31 16)
  if r.getLsbD 5 then decide (score ≤ limit) else decide (limit ≤ score)
def ruleOk (r : Word) : Bool :=
  decide (ruleScore r ≤ 17) && (ruleTier r == 1 || ruleTier r == 2) && decide (ruleCause r ≤ 0xEF) && r.fld 63 54 == 0

/-- A watch's port lies in range. -/
def watchPortOk (n : Nat) : Bool := decide (n ≤ 7) || n == 15

/-- Fields of WAKE_SET's words lie in their ranges. -/
def WakeTable.ok (t : WakeTable) : Bool :=
  let w4 := t.w 4; let w5 := t.w 5
  decide (1 ≤ t.t1Limit) && decide (t.t1Limit ≤ 1000) && decide (t.linger ≤ 60000) && w4.fld 55 49 == 0 && w4.fld 63 61 == 0
    && watchPortOk (t.watchPort 0) && watchPortOk (t.watchPort 1) && t.decimate != 0
    && decide (1 ≤ t.alphaShift) && decide (t.alphaShift ≤ 8) && w5.fld 31 28 == 0 && w5.fld 63 44 == 0
    && t.rules.all ruleOk

/-- A weave that Tier 1 can run (R362). -/
def Weave.tier1Ok (w : Weave) (entry : Nat) : Bool :=
  w.bundles == 1 && w.classes.isEmpty && w.serving.isNone && w.knots == 0 && w.attach == 0
    && w.allocs.all (fun a => !flagPin a.flags && flagWindow a.flags == 0 && !a.map) && entryKind w.entries entry 0

/-- Another context holds the table, or will hold it at the next frame. -/
def Device.tableHeld (d : Device) (ctx : Nat) : Bool :=
  let t : Option WakeTable := match d.cas.next with | some t => t | none => d.cas.table
  t.any fun t => t.ctx != ctx

/-- The table is taken: its plan allocations are made and filled as WEAVE_BIND would (R322, R362). -/
def Device.setTable (d : Device) (now : Nat) (t : WakeTable) (plan : Option (Weave × List Nat)) : Device :=
  let d := d.endTable now (d.cas.next.getD none)
  let d := match plan with
    | none => d
    | some (w, slots) => forEach d w.contents fun d c => d.placeContent now w slots c
  { d with cas := { d.cas with next := some (some { t with t1Slots := (plan.map (·.2)).getD [] }) } }

/-- WAKE_SET (R255, R362). DEDUCED (log entry 103): an image that cannot be read is a malformed image. -/
def execWakeSet (s : State) : Host.Outcome State Fault Refusal :=
  hostCmd 0x52 s fun now p d =>
    let n := (p.w 4).fld 60 56
    let t : WakeTable := ⟨p.id.ctx, (p.words.drop 3).take (3 + n), [], []⟩
    let prog : Word := BitVec.ofNat 64 ((p.w 3).fld 31 0)
    let t1 := t.t1Handle
    let a := if prog = 0 then none else d.byHandle prog
    let w := if t1 = 0 then none else d.weaveByHandle t1
    let made := match w with
      | none => some ([], d)
      | some w => d.makePlan now (handleSlot t1) w.allocs
    let size := (a.map Alloc.bytes).getD 0
    let img := match a with
      | none => []
      | some a => d.readBytes a 0 (min size (t0Length (d.readBytes a 0 (min size 16))))
    let unread := a.bind fun a => d.firstBad a 0 (min size (max 16 img.length))
    d.checked now p.id
      [(p.badFlags || decide (16 < n) || p.len != 7 + n || p.w 2 != 0 || !t.ok || handleBad prog || handleBad t1, stBadParam),
       ((prog != 0 && a.isNone) || (t1 != 0 && w.isNone), stStaleGen),
       (unread.isSome || (a.isSome && !(t0HeaderOk (img.take 16) size && t0ImageOk img)) || w.any (fun w => !w.tier1Ok t.t1Entry), stBadParam),
       (d.notServed 0x52 || d.tableHeld p.id.ctx || w.any (·.bound.isSome) || made.isNone, stRefusedState)]
      fun d => match made with
        | none => d
        | some (slots, e) => (e.setTable now { t with image := img } (w.map fun w => (w, slots))).answer now p.id stOk []

/-! ### Scores (R358–R360) -/

def Device.watch (d : Device) (w : Nat) : Watch := d.cas.watches.get Watch.init w

/-- Zones of a watch that have changed; 0 while its link is down. -/
def Device.watchScore (d : Device) (t : WakeTable) (w : Nat) : Int :=
  if t.watchPort w < 8 && (d.csi (t.watchPort w)).link then
    ((d.watch w).diff.filter fun e => decide (t.zoneDelta < e.2.natAbs)).length
  else 0

def Device.score (d : Device) (t : WakeTable) (i : Nat) : Int :=
  if i < 16 then d.cas.scores.get 0 i else d.watchScore t (i - 16)

/-- Channels that are present and active. -/
def Audio.activeChannels (a : Audio) : List Nat :=
  (List.range 16).filter fun c => bitOf a.present (pinOf c) && a.pins.get false (pinOf c)

/-- The 40 features of an input for the frame under way (R358). -/
def Device.features (d : Device) (input : Nat) : List Int :=
  let cs := if input < 16 then [input] else d.aud.activeChannels
  (List.range 40).map fun b => (Config.feature (cs.map fun c => d.aud.recent.get [] c) b).toInt

/-- Audio inputs that programs use gain this frame's features; a GAP frame enters as missing. -/
def Device.addFeatures (d : Device) (t : WakeTable) : Device :=
  let ins := ((t0Progs t.image).map (·.input)).filter (· < 17)
  let feats := ins.eraseDups.foldl (fun (m : SMap (List (List Int))) i =>
    m.set [] i (((if d.cas.gapFrame then missingFrame else d.features i) :: d.cas.feats.get [] i).take frameHistory)) d.cas.feats
  { d with cas := { d.cas with feats := feats } }

/-- A program's input (R360): frames oldest first, or a watch's D as one row. -/
def Device.progInput (d : Device) (p : T0Prog) : Tensor :=
  if p.input < 17 then
    let l := d.cas.feats.get [] p.input
    ((l.take p.frames) ++ List.replicate (p.frames - l.length) missingFrame).reverse
  else
    [(List.range 1024).map fun z => clampInt (-128) 127 (((d.watch (p.input - 17)).diff.get 0 z).fdiv 16)]

/-- Every program writes its scores. -/
def Device.runPrograms (d : Device) (t : WakeTable) : Device :=
  forEach d (t0Progs t.image) fun d p =>
    { d with cas := { d.cas with scores := d.cas.scores.setList 0 p.base (p.run t.image (d.progInput p)) } }

/-! ### Motion watch (R359) -/

/-- Bounds of zone `u` of 32 along `n`. -/
def watchZone (n u : Nat) : List Nat := rangeFrom (u * n / 32) ((u + 1) * n / 32 - u * n / 32)

/-- Z of a zone: the rounded mean of its values; 0 where it has none. -/
def zoneMean (bits width height : Nat) (p : List (List Nat)) (z : Nat) : Nat :=
  let vs := (watchZone height (z / 32)).flatMap fun y => (watchZone width (z % 32)).filterMap fun x =>
    ((p.getD y [])[x]?).map fun s => s * 2 ^ (20 - bits) / 16
  if vs.isEmpty then 0 else meanOf vs

/-- A frame's zones against the background. -/
def Watch.scored (x : Watch) (t : WakeTable) (bits width : Nat) (p : List (List Nat)) : Watch :=
  (List.range 1024).foldl (fun (x : Watch) z =>
    let zv : Int := zoneMean bits width x.height p z
    let b := x.background.get 0 z
    { x with diff := x.diff.set 0 z (zv - b)
             background := x.background.set 0 z (b + (zv - b).fdiv ((2 ^ t.alphaShift : Nat) : Int)) }) x

/-- MOTION_WATCH_FRAME: a frame of the watched channel is complete. Every DECIMATE-th is taken; one without a frame
before it since the link came up is not scored. -/
def execMotionWatchFrame (watch : Bool) (lineLen bits : Nat) (samples : List (List Nat)) (s : State) : Host.Outcome State Fault Refusal :=
  s.act fun _ d =>
    let w := b2n watch
    match d.cas.table with
    | none => d
    | some t =>
      let port := t.watchPort w
      if !(d.earsOn && decide (port < 8) && d.csiPowered port && (d.csi port).link) then d
      else
        let x := d.watch w
        let n := x.frames + 1
        let y := if n % t.decimate = 0 ∧ x.height ≠ 0 then x.scored t bits lineLen samples else x
        { d with cas := { d.cas with watches := d.cas.watches.set Watch.init w { y with frames := n, height := samples.length } } }

/-! ### Wakes (R364, R368) -/

/-- A WAKE event. Any wake keeps a device that the cascade raised from falling (R366). -/
def Device.wake (d : Device) (now tier cause : Nat) : Device :=
  ({ d with cas := { d.cas with linger := d.cas.linger.map fun _ => now } } : Device).raise now 5 0x0040
    (mkWord [(tier, 0), (cause, 8)]) 0

/-- BATTERY_BUDGET that sets no limit (R258). -/
def noBudgetLimit : Nat := 0xFFFFFFFF
/-- What is left of the budget in the present episode. -/
def PowerSt.remainder (p : PowerSt) : Nat := if p.budget = noBudgetLimit then noBudgetLimit else p.budget - p.spent
/-- The reserve of a Tier 1 wake in mJ, with T1_LIMIT in ms. -/
def tier1Reserve (limit : Nat) : Nat := cdiv (9 * (15 + 2 * limit)) 2
/-- The episode pays for a Tier 1 wake. -/
def PowerSt.affords (p : PowerSt) (limit : Nat) : Bool := p.budget == noBudgetLimit || decide (tier1Reserve limit ≤ p.remainder)
/-- The charge of a wake from `a` to `b`: 9 mJ for each whole or part millisecond. -/
def wakeCharge (a b : Nat) : Nat := 9 * cdiv (b - a) 1000000

/-- The weave that the table names for Tier 1. -/
def Device.tier1Weave (d : Device) (t : WakeTable) : Option Weave := if t.t1Handle = 0 then none else d.weaveByHandle t.t1Handle

/-- A Tier 1 run is possible: the table names a weave, and the scout bundle is in no partition. -/
def Device.tier1Able (d : Device) (t : WakeTable) : Bool := (d.tier1Weave t).isSome && (d.partOf 0).isNone

/-- A Tier 1 run is in progress or on its way, or the state is being raised. -/
def Device.wakeBusy (d : Device) : Bool := d.cas.tier1.isSome || d.cas.waiting.isSome || d.rising

/-- A transition may begin on a wake. -/
def Device.mayRaise (d : Device) : Bool := d.ready && d.pwr.trans.isNone && d.pwr.pfail.isNone && !d.pwr.handOver && !d.hub.oos

/-- The argument area of a Tier 1 run (R365): block, rule and cause, the 18 scores four to a word. -/
def Device.tier1Args (d : Device) (t : WakeTable) (rule cause block : Nat) : List Word :=
  let sc (i : Nat) : Nat := if i < 18 then (d.score t i % 65536).toNat else 0
  [BitVec.ofNat 64 block, mkWord [(rule, 0), (cause, 8)]]
    ++ (List.range 5).map fun j => mkWord ((List.range 4).map fun i => (sc (4 * j + i), 16 * i))

/-- A Tier 1 run starts (R365): sections placed in the scout pools, T1_ENTRY dispatched as in R77 outside any partition. -/
def Device.startTier1 (d : Device) (now : Nat) (t : WakeTable) (rule cause block : Nat) : Device :=
  match d.tier1Weave t with
  | none => d
  | some w =>
    let e := w.entries.getD t.t1Entry ⟨0, 0, 0, 0, 0, []⟩
    let args := d.tier1Args t rule cause block
    let d := d.placeSections w
    let bound := d.argumentBlock { w with planSlots := t.t1Slots, attSlots := [], knotIdx := [] }
    let d := d.modCore w.control fun k => { k with
      pool := (k.pool.setList 0 w.bindOff (wordsBytes bound)).setList 0 e.argOff (wordsBytes (args.take ((poolBytes - e.argOff) / 8))) }
    let deadline := lstOf now (now + 1000000 * t.t1Limit)
    let d := forEach d [0, 1, 2, 3] fun d c => d.modCore c fun k => k.atDispatch t.t1Entry deadline (c == w.control)
    let d := forEach d (w.sections.zipIdx) fun d x =>
      match (d.core x.1.core).startOffset x.1 t.t1Entry with
      | none => d
      | some pc =>
        let sc := e.scheds.getD x.2 (0, 0, 0)
        let d := d.setLknot x.1.core sc.2.2 { d.lknot x.1.core sc.2.2 with count := 0 }
        d.modCore x.1.core fun k => k.start pc t.t1Entry (if x.1.core = w.control then e.argOff else 0) 1 args.length ⟨sc.1, sc.2.1, sc.2.2, 0⟩
    { d with cas := { d.cas with tier1 := some ⟨now, handleSlot t.t1Handle, t.t1Limit⟩, linger := none } }

/-- A rule of tier 1 governs. -/
def Device.wakeTier1 (d : Device) (now : Nat) (t : WakeTable) (rule cause block : Nat) : Device :=
  let go := d.tier1Able t && !d.wakeBusy
  match d.pwr.state with
  | .listen =>
    if !(go && d.mayRaise) then d.wake now 1 cause
    else if d.pwr.onBattery && !d.pwr.affords t.t1Limit then d.wake now 0 0xFD
    else
      let d := (d.wake now 1 cause).askTransition now .hush none
      { d with cas := { d.cas with
        waiting := some (rule, cause, block), raised := true, chargeFrom := if d.pwr.onBattery then some now else none } }
  | _ =>
    let d' := d.wake now 1 cause
    if go && d.pwr.pfail.isNone && !(d.pwr.trans.any (·.started.isSome)) then d'.startTier1 now t rule cause block else d'

/-- A wake of Tier 2, given by a rule or by a Tier 1 verdict. On battery it takes the device nowhere. -/
def Device.wakeTier2 (d : Device) (now : Nat) (t : WakeTable) (cause : Nat) (byRun : Bool) : Device :=
  if d.pwr.onBattery then d.wake now (b2n byRun) 0xFE
  else
    let d := d.wake now 2 cause
    if t.autoRun && d.pwr.state != .run && d.mayRaise && !d.wakeBusy then
      ({ d with cas := { d.cas with raised := false, linger := none } } : Device).askTransition now .run none
    else d

/-! ### Rules (R363) -/

/-- One rule in one frame: its counts, and whether it fires. -/
def Device.stepRule (d : Device) (t : WakeTable) (i : Nat) (r : Word) : Bool × Device :=
  let c := d.cas
  let left := c.refractory.get 0 i
  let n := c.holds.get 0 i + 1
  let met := !c.gapFrame && ruleMet r (d.score t (ruleScore r))
  if left ≠ 0 then (false, { d with cas := { c with refractory := c.refractory.set 0 i (left - 1), holds := c.holds.set 0 i 0 } })
  else if !met then (false, { d with cas := { c with holds := c.holds.set 0 i 0 } })
  else if n ≤ ruleHold r then (false, { d with cas := { c with holds := c.holds.set 0 i n } })
  else (true, { d with cas := { c with holds := c.holds.set 0 i 0, refractory := c.refractory.set 0 i (ruleRefractory r) } })

/-- Every rule in turn: the numbers of those that fire. -/
def Device.stepRules (d : Device) (t : WakeTable) : Nat → List Word → List Nat × Device
  | _, [] => ([], d)
  | i, r :: rs =>
    let (f, d) := d.stepRule t i r
    let (l, d) := d.stepRules t (i + 1) rs
    (if f then i :: l else l, d)

/-- The rule that governs: of the highest tier that fires, the lowest-numbered. -/
def WakeTable.governing (t : WakeTable) (fired : List Nat) : Option Nat :=
  (fired.find? fun i => ruleTier (wordAt t.rules i) == 2).orElse fun _ => fired.head?

/-- TIER0_FRAME_DONE: features, programs and rules of the frame are done (R357–R364). -/
def execTier0FrameDone (s : State) : Host.Outcome State Fault Refusal :=
  s.act fun now d =>
    match d.cas.frameBlock, d.cas.table with
    | none, _ => d
    | some _, none => { d with cas := { d.cas with frameBlock := none } }
    | some k, some t =>
      if !d.earsOn then d
      else
        let d := ((d.addFeatures t).runPrograms t)
        let (fired, d) := d.stepRules t 0 t.rules
        let d := { d with cas := { d.cas with frameBlock := none } }
        match t.governing fired with
        | none => d
        | some i =>
          let r := wordAt t.rules i
          if ruleTier r = 2 then d.wakeTier2 now t (ruleCause r) false else d.wakeTier1 now t i (ruleCause r) k

/-! ### Tier 1 ends (R365, R366) -/

/-- TIER1_HALT: the bundle has halted; word 0 of the result block is the verdict. A block of no words leaves the verdict
open. -/
def execTier1Halt (s : State) : Host.Outcome State Fault Refusal :=
  s.act fun now d =>
    match d.cas.tier1, d.cas.table with
    | some x, some t =>
      if !([0, 1, 2, 3].all fun c => !(d.core c).part || (d.core c).run == .halted) then d
      else
        let block := (((d.weave? x.weave).map fun w => (d.core w.control).resultBlock)).getD []
        let v := block.headD d.freeWord
        let d := if block.isEmpty then d.tookFree else d
        let d := { d with cas := { d.cas with tier1 := none } }
        if v.fld 1 0 = 2 then
          let d := d.wakeTier2 now t (v.fld 15 8) true
          if d.pwr.onBattery && d.cas.raised then { d with cas := { d.cas with linger := some now } } else d
        else { d with cas := { d.cas with linger := if d.cas.raised then some now else none } }
    | some _, none => { d with cas := { d.cas with tier1 := none } }
    | none, _ => d

/-- TIER1_LIMIT_EXPIRE: the run is stopped at T1_LIMIT. -/
def execTier1LimitExpire (s : State) : Host.Outcome State Fault Refusal :=
  s.act fun now d =>
    match d.cas.tier1 with
    | none => d
    | some x => if x.at_ + 1000000 * x.limit ≤ now then d.stopTier1 now 0xF1 else d

/-- LINGER_EXPIRE: LINGER has passed with no further wake; the device falls to LISTEN. On battery LINGER is 0. -/
def execLingerExpire (s : State) : Host.Outcome State Fault Refusal :=
  s.act fun now d =>
    match d.cas.linger with
    | none => d
    | some at_ =>
      let ms := if d.pwr.onBattery then 0 else (d.cas.table.map (·.linger)).getD 0
      if d.cas.raised && d.pwr.state == .hush && d.mayRaise && d.cas.tier1.isNone && decide (at_ + 1000000 * ms ≤ now) then
        ({ d with cas := { d.cas with linger := none } } : Device).askTransition now .listen none
      else d

end Sys2Proof.Machine
end

