-- ==== Sys2Proof/Machine/Cold.lean ====
section
/-! DEFINITION. What the resets of the device and the two lowest states leave (R267, R273, R370, R374, R389, R458, R461):
the hub and fabric at their reset values, entering EMBER and OFF, and the work of a loss of input. -/

namespace Sys2Proof.Machine

/-! ### Resets of the hub and the fabric -/

/-- The hub's units after a reset: spares that stand in for failed parts keep doing so; a dump kept in hub SRAM stays
while the hub is powered. -/
def Hub.restart (x : Hub) (now : Nat) (keepDump : Bool) : Hub :=
  { Hub.init with
    laneUsed := x.laneUsed, laneLost := x.laneLost, rowMarked := x.rowMarked, rowSpares := x.rowSpares, oos := x.oos, hubResetAt := now
    digWant := x.digWant
    dump := if keepDump then x.dump else [], dumpNumber := if keepDump then x.dumpNumber else 0
    dumpAt := if keepDump then x.dumpAt else 0, traceKept := keepDump && x.traceKept }

/-- The fabric after a reset of the device: substitutions stand, and failed knot slots are replaced. -/
def Fabric.restart (x : Fabric) : Fabric :=
  let x := (x.gknots.filter (·.2.failed)).foldl (fun x e => x.replaceKnot e.1) x
  { Fabric.init with
    slots := x.slots, spareUsed := x.spareUsed, degraded := x.degraded, knotSpares := x.knotSpares
    gknots := x.gknots.filterMap fun e =>
      if e.2.spare || e.2.withdrawn then some (e.1, { ({} : GKnot) with spare := e.2.spare, withdrawn := e.2.withdrawn }) else none }

/-- The host port after a reset of the hub. -/
def Port.restart (x : Port) : Port := { Port.init with epoch := x.epoch + 1, msixSent := x.msixSent }

/-- Peat before its mount: what is stored stands, with the journal tail; work that waited or ran is gone. -/
def Peat.unmounted (p : Peat) : Peat :=
  { [0, 1, 2, 3].foldl (fun p c => p.stopErase c) p with
    mounted := false, queue := [], busy := [], windows := [], lastWindow := [], waits := [], rereads := [] }

/-- The rank sets' retirements and spares are found again by training; the lists of retired pages stand. -/
def HalfDram.unpowered (x : HalfDram) : HalfDram := { x with copy := none, draws := 0 }

/-- The generators take their fused seed as the hub leaves reset (R284). -/
def Device.fusedSeeds (d : Device) : Device :=
  let f (x : HalfDram) : HalfDram := { x with gen128 := Config.fuseSeed, draws := 0 }
  let d := (d.modHalfDram 0 f).modHalfDram 1 f
  { d with sec := { d.sec with seeded := false } }

/-- What survives of a tenant that ends with a reset: only that its scrub is still to run. -/
def Tenant.afterReset (t : Tenant) : Tenant :=
  { Tenant.init with state := t.state, id := t.id, scrubAt := t.scrubAt }

/-- The key is destroyed and every context closed; an open tenant is SCRUBBING (R427). -/
def Device.abandonTenant (d : Device) (now : Nat) : Device :=
  if d.ten.state = .open_ then d.startScrub now none else d

/-- A warm reset (R267): all but the always-on domain, with DRAM kept in self-refresh and its settings, and the supplies as
they stand. A copy to a spare goes on where it stopped (R288). -/
def Device.warmReset (d : Device) (now : Nat) : Device :=
  let d := { d with
    port := d.port.restart, ev := Events.init, fab := d.fab.restart
    arb := ⟨d.arb.reqs.filter fun r => match r.job.what with | .copy _ => true | _ => false, [], 0⟩
    parts := d.parts.mapV Part.init fun q => { Part.init with resetTimes := q.resetTimes }
    ten := d.ten.afterReset, mem := Mem.init, peat := d.peat.unmounted, cam := ⟨[], [], []⟩
    dram := { d.dram with selfRefresh := true, refreshFrom := now, freq := none, subs := [], zqAt := [], patrol := [] }
    pace := { d.pace with waits := [] }
    pwr := { d.pwr with trans := none, handOver := false, scoutLost := false }
    cas := { d.cas with tier1 := none, waiting := none, raised := false, linger := none, chargeFrom := none }
    hub := d.hub.restart now true
    sec := { d.sec with entropyReady := false, startAt := some now, fails := 0 } }
  d.fusedSeeds

/-- Memory unpowered, to be trained again (R273). -/
def Dram.unpowered (x : Dram) : Dram :=
  { Dram.init with halves := x.halves.mapV HalfDram.init HalfDram.unpowered }

/-- A reset with the supplies off or memory to be trained again: domains unpowered, at pace 6 when they return (R377), and the peat map,
which DRAM held, to be read again (R301, R305). -/
def Device.coldReset (d : Device) (now : Nat) : Device :=
  let d := d.warmReset now
  { d with
    dram := d.dram.unpowered
    arb := ⟨[], [], 0⟩
    peat := { d.peat with map := [], dev := [] }
    pace := ⟨[], [], [], d.pace.pfailAlarm, none, if d.pace.boostStart.isSome then some now else d.pace.boostEnd⟩
    therm := { d.therm with cap := [], capAt := [] }
    hub := d.hub.restart now false
    sec := { d.sec with startAt := none } }

/-! ### EMBER and OFF (R370, R449) -/

/-- Every rail is at 0 V. -/
def Device.railsOff (d : Device) : Device :=
  forEach d [0, 1, 2] fun d r => d.modRail r fun x => { x with mv := 0, trans := none, held := none, offset := 0 }

/-- The units that EMBER gates lose what they hold. -/
def Device.enterEmber (d : Device) (now : Nat) : Device :=
  let d := ((d.gateDomains .ember).gateCores .ember).railsOff.setPower .ember
  let d := d.portReset.writeAllBack now
  let i3c (x : I3c) : I3c := { x with nextTry := none, scheduled := none }
  { d with
    aon := { d.aon with gpio1 := false }
    port := { d.port with interp := none }
    ev := { d.ev with waiting := [], seq := 0, gap := none, lost := 0 }
    mem := d.mem.gateMeres
    dram := { d.dram with selfRefresh := true, refreshFrom := now, freq := none }
    cas := { d.cas with frameBlock := none }
    hub := { d.hub.restart now false with digEpoch := d.hub.digEpoch, dig0 := d.hub.dig0, dig1 := d.hub.dig1, digAgree := d.hub.digAgree }
    sec := { d.sec with entropyReady := false, startAt := none }
    i3c := d.i3c.mapV I3c.init i3c
    pwr := { d.pwr with since := now } }

/-- Supplies fall and everything is gated but the time base, the residency counters, the journal tail and the fault log. The escalation
counts stand, and so does being out of service: only a cold start or a FULL reset clears them (R400, R401). -/
def Device.enterOff (d : Device) (now : Nat) : Device :=
  let d := (d.abandonTenant now).endTenantObjects now
  let d := d.coldReset now
  let d := d.setPower .off
  { d with
    aon := { d.aon with gpio0 := false, gpio1 := false, boot := .down, bootAt := now }
    aud := Device.init.aud, cas := Device.init.cas, i3c := [], port := { d.port with cause := 0 }
    pwr := { d.pwr with since := now, budget := noBudgetLimit } }

/-! ### Loss of input (R389) and controlled shutdown (R382) -/

/-- A voltage transition under way is aborted: each domain keeps the lower of its old and new pace (R20). -/
def Device.abortRails (d : Device) : Device :=
  forEach d [0, 1, 2] fun d r =>
    let ts := ((d.rail r).trans.map fun t => t.targets.zip (t.old.map (·.2))).getD []
    let d := forEach d ts fun d x => if (d.dom x.1.1).on then d.putPace x.1.1 (min x.1.2 x.2) else d
    d.modRail r fun x => { x with trans := none, held := none }

/-- Every unanswered command is answered FAULTED. -/
def Device.faultEverything (d : Device) (now : Nat) : Device :=
  let d := d.endScans now
  let ids := d.waitingIds
  let d := forEach d (List.range 16) fun d p => d.faultAllItems now p
  let d := forEach d ids fun d id => d.answer now id stFaulted []
  d.clearWaits

/-- t0 of R389: admission stops, work is lost, flash starts nothing new. `toOff`: a controlled shutdown, without the supply
alarm of PFAIL_N. -/
def Device.beginPfail (d : Device) (now : Nat) (toOff : Bool) : Device :=
  match d.pwr.pfail with
  | some p => { d with pwr := { d.pwr with pfail := some { p with toOff := p.toOff || toOff } } }
  | none =>
    let up := d.pwr.state == .run || d.pwr.state == .hush
    let d := d.abortRails
    let d := if up && !toOff then d.alarm now 2 2 else d
    let d := if up && !toOff then { d with pace := { d.pace with pfailAlarm := true } } else d
    let d := if up then d.stopPipes now else d
    let d := if d.cas.tier1.isSome then d.stopTier1 now 0xF2 else d
    let d := d.faultEverything now
    let d := if up then d.writeAllBack now else d
    let d := { d with
      cas := { d.cas with waiting := none, raised := false, linger := none, chargeFrom := none }
      pwr := { d.pwr with trans := none, handOver := false, pfail := some ⟨now, toOff⟩ }
      dram := { d.dram with freq := none } }
    let d := d.endErases
    if d.peat.tail.isEmpty || d.pwr.state != .ember then
      { d with aon := { d.aon with gpio1 := d.aon.gpio1 || (d.pwr.state == .listen && !d.peat.tail.isEmpty) } }
    else
      ({ d with aon := { d.aon with gpio1 := true } } : Device).modRail 2 fun x =>
        { x with cmd := 550, trans := some ⟨true, [], [], 550, .settling, now⟩ }

/-- The journal tail is committed to both rings. -/
def Peat.commitTail (p : Peat) : Peat :=
  let p := ((p.ringCommit 0 p.appended).ringCommit 2 p.appended).settle
  { p with queue := p.queue.mapV [] fun l => l.filter fun o => o.kind != .commit }

/-- Domains are gated and the device is in EMBER, or in OFF after a controlled shutdown. -/
def Device.gateAll (d : Device) (now : Nat) (toOff : Bool) : Device :=
  let d := d.modPeat Peat.commitTail
  let d := forEach d (List.range 16) fun d p => d.resetStreams p
  let d := if d.ten.state = .scrubbing then { d with ten := { d.ten with scrubPaused := true } } else d
  let d := if toOff then d.enterOff now else d.enterEmber now
  { d with pwr := { d.pwr with pfail := none, enteredByLoss := true } }

/-! ### OFF is left (R375, R458) -/

/-- The start begins at the row of t1, GPIO0 rising. -/
def Device.leaveOff (d : Device) (now : Nat) : Device :=
  { d with aon := { d.aon with gpio0 := true, boot := .released, bootAt := now } }

/-- Flash programs or erases are under way. -/
def Device.flashBusy (d : Device) : Bool := [0, 1, 2, 3].any fun c => (d.peat.busy.get none c).isSome

/-- A cause of R375 acts: EMBER, or OFF with Tj at most 95 °C, with nothing under way. -/
def Device.wakes (d : Device) : Bool :=
  d.aon.up && !d.aon.porstLow && !d.therm.tripped && d.pwr.trans.isNone && d.pwr.pfail.isNone && !d.pwr.pfailLow
    && (d.pwr.state == .ember || (d.pwr.state == .off && d.aon.boot == .down && decide (d.therm.device ≤ 95 * 16)))

/-- EMBER passes to LISTEN, OFF to RUN. -/
def Device.wakeUp (d : Device) (now : Nat) : Device :=
  if !d.wakes then d
  else if d.pwr.state = .ember then d.askTransition now .listen none else d.leaveOff now

end Sys2Proof.Machine
end

