-- ==== Sys2Proof/Machine/Power.lean ====
section
/-! DEFINITION. Power states and their transitions, mains, battery and hand-over, loss of input (R33, R256, R258, R370–R377,
R385–R390). -/

namespace Sys2Proof.Machine

/-! ### The return to RUN (R373) -/

/-- The page tables of a serving weave are written again. -/
def Device.rewriteTables (d : Device) (w : Weave) : Device :=
  match w.serving with
  | none => d
  | some x => forEach d (List.range seqSlots) fun d i =>
      forEach d (d.seq i).frames fun d e => (e.2.map fun f => d.writeEntry w x i e.1 f).getD d

/-- Map allocations hold undefined contents: free values. -/
def Device.scrambleMaps (d : Device) (w : Weave) : Device :=
  let maps := (w.planSlots.filterMap d.alloc?).filter (·.map)
  forEach d maps fun d a =>
    let bs := (List.range a.bytes).map fun i => BitVec.setWidth 8 (Config.freeLane d.freeCount i)
    ({ d with mem := { d.mem with
      bytes := d.mem.bytes.setList 0 (a.key 0) bs
      form := setAll .fresh d.mem.form (rangeFrom a.p0 a.pages) .raw } } : Device).tookFree

/-- Cores of a partition that were gated since RUN was left. -/
def Device.lostCores (d : Device) (p : Nat) : List Nat :=
  (d.part p).cores.filter fun c => decide (4 ≤ c) || d.pwr.scoutLost

/-- A partition whose cores were gated is restored. -/
def Device.restorePart (d : Device) (p : Nat) : Device :=
  let gone := d.lostCores p
  if !(d.part p).defined || gone.isEmpty then d
  else
    let d := forEach d (d.part p).cores fun d c => d.modCore c Core.afterReset
    let d := match d.boundWeave p with
      | none => d
      | some w =>
        let lost := w.sections.filter fun (x : Section_) => gone.contains x.core
        let d := forEach d lost fun d x => d.modCore x.core fun k => k.place x
        (if gone.contains w.control then d.rewriteTables w else d).scrambleMaps w
    (d.advanceKnots p).resetStreams p

/-! ### Hand-over to battery (R386, R388) -/

/-- The hand-over completes: ON_BATTERY, the episode and its count (R368, R387). -/
def Device.completeHandOver (d : Device) (now : Nat) : Device :=
  let high := d.pwr.mainsAcc
  { d with pwr := { d.pwr with
    handOver := false, onBattery := true, spent := 0
    count := if high && d.pwr.mains then some now else none, countStopped := high && !d.pwr.mains } }.setCause causeState

/-- Queued work of a partition is withdrawn as under CANCEL; a feed with a step running ends with that step. -/
def Device.withdrawQueued (d : Device) (now p : Nat) : Device :=
  let ms := (d.part p).items.flatMap fun it => it.members.map fun m => (it, m)
  let runs := ((d.part p).running.map fun r => r.item.members.map (·.key)).getD []
  forEach d ms fun d (x : Item × Member) =>
    if x.1.kind = .serve ∧ runs.contains x.2.key then
      (d.setSeq x.2.key { d.seq x.2.key with cancelled := true }).modPart p fun q => { q with items := withdrawFeed q.items x.2.key }
    else d.withdrawn now p x.1 x.2

/-- A hand-over starts; in LISTEN and EMBER it completes at once. -/
def Device.startHandOver (d : Device) (now : Nat) : Device :=
  if d.pwr.state = .run ∨ d.pwr.state = .hush then
    let d := d.endBoost now
    let d := forEach d (List.range 16) fun d p => d.withdrawQueued now p
    let d := { d with pwr := { d.pwr with handOver := true } }
    let d := if d.cas.tier1.isSome then d.stopTier1 now 0xF3 else d
    let d := (({ d with cas := { d.cas with waiting := none, raised := false, linger := none, chargeFrom := none } } : Device).endScans now)
    let d := if d.ten.state = .scrubbing then { d with ten := { d.ten with scrubPaused := true } } else d
    d.askTransition now .listen none
  else d.completeHandOver now

/-- A POWER_STATE that waits under R33 is answered REFUSED_STATE. -/
def Device.refuseWaiting (d : Device) (now : Nat) : Device :=
  match d.pwr.trans with
  | none => d
  | some t =>
    if t.started.isSome then d
    else
      let d := { d with pwr := { d.pwr with trans := none } }
      match t.id with
      | some id => d.answer now id stRefusedState []
      | none => d

/-- A fall of PWR_MAINS is accepted while PWR_BATT is high. -/
def Device.mainsFell (d : Device) (now : Nat) : Device :=
  if d.pwr.state = .off || d.therm.tripped || d.pwr.pfail.isSome || d.pwr.handOver then d
  else if d.pwr.onBattery then d
  else
    let d := d.refuseWaiting now
    let served := d.pwr.state == .run || d.pwr.state == .hush
    if d.pwr.trans.isSome && (d.rising || served) then
      { d with pwr := { d.pwr with trans := d.pwr.trans.map fun t => { t with handOver := true } } }
    else d.startHandOver now

/-! ### A state is reached (R372) -/

/-- Every rail has ended its transitions. -/
def Device.railsIdle (d : Device) : Bool := [0, 1, 2].all fun r => (d.rail r).trans.isNone && (d.rail r).held.isNone

/-- Rails and domains stand as a state needs them. -/
def Device.railsReady (d : Device) (b : Power) (rising : Bool) : Bool :=
  ([0, 1, 2].all fun r =>
    let need := d.needMv r [] (d.rail r).offset
    if rising then decide (need ≤ (d.rail r).mv) else (d.rail r).mv == need)
    && (!rising || domains.all fun i => !domainIn b i || (d.dom i).on)

/-- RUN: partitions restored. -/
def Device.reachRun (d : Device) (now : Nat) : Device :=
  let d := ((forEach d (List.range 16) Device.restorePart).exitSelfRefresh now).askScrub now
  { d with
    aon := { d.aon with gpio1 := true }
    dram := { d.dram with low := false }
    ten := { d.ten with scrubPaused := false }
    pwr := { d.pwr with scoutLost := false }
    cas := { d.cas with raised := false, linger := none, chargeFrom := none, waiting := none } }

/-- HUSH: a Tier 1 run that waits starts. -/
def Device.reachHush (d : Device) (now : Nat) : Device :=
  let d := (d.exitSelfRefresh now).askScrub now
  let d := { d with
    aon := { d.aon with gpio1 := true }
    dram := { d.dram with low := true }
    ten := { d.ten with scrubPaused := false } }
  match d.cas.waiting, d.cas.table with
  | some (rule, cause, block), some t =>
    let d := { d with cas := { d.cas with waiting := none } }
    if d.tier1Able t then d.startTier1 now t rule cause block
    else { d with cas := { d.cas with linger := some now } }
  | _, _ => { d with cas := { d.cas with waiting := none } }

/-- LISTEN: the wake that ends is charged, and a hand-over completes. -/
def Device.reachListen (d : Device) (now : Nat) (fromEmber handOver : Bool) : Device :=
  let charge := (d.cas.chargeFrom.map fun a => wakeCharge a now).getD 0
  let kept (x : I3c) : I3c := { x with scheduled := if x.started then some (now + 1000000) else none }
  let d := { d with
    aon := { d.aon with gpio1 := false }
    dram := { d.dram with selfRefresh := true, refreshFrom := now }
    pwr := { d.pwr with spent := d.pwr.spent + charge }
    cas := { d.cas with raised := false, linger := none, chargeFrom := none, waiting := none } }
  let d := if fromEmber then
      ({ d with i3c := d.i3c.mapV I3c.init kept, hub := { d.hub with hubResetAt := now } } : Device).fusedSeeds else d
  let newEpisode := fromEmber && !d.pwr.mainsAcc && d.pwr.battAcc && (d.pwr.enteredByLoss || !d.pwr.onBattery)
  let d := if handOver || newEpisode then d.completeHandOver now else d
  { d with pwr := { d.pwr with enteredByLoss := d.pwr.enteredByLoss && !fromEmber } }

/-- The hop's end: the transition is answered there, or its next hop starts. -/
def Device.arriveAt (d : Device) (now : Nat) (t : Trans) (b : Power) : Device :=
  let a := d.pwr.state
  let d := match b with | .ember | .off => d | _ => { d.setPower b with pwr := { (d.setPower b).pwr with since := now } }
  let d := match b with
    | .run => d.reachRun now
    | .hush => d.reachHush now
    | .listen => d.reachListen now (a == Power.ember) (d.pwr.handOver || (t.handOver && (a == Power.run || a == Power.hush)))
    | .ember => d.enterEmber now
    | .off => d.enterOff now
  let late := t.handOver && b != Power.listen
  if b = t.to_ then
    let d := d.answerTrans now
    let d := { d with pwr := { d.pwr with trans := none } }
    if late || (t.handOver && a == Power.ember) then d.mainsFell now else d
  else d.startHop now

/-- POWER_TRANSITION_COMPLETE (R372): the rails, the domains and the memory stand as the next state needs them, and programs
under way are complete. A rail that failed to settle is written again. -/
def execPowerTransitionComplete (s : State) : Host.Outcome State Fault Refusal :=
  s.act fun now d =>
    match d.pwr.trans with
    | none => d
    | some t =>
      let b := d.pwr.state.hop t.to_
      let rising := !d.pwr.state.lowers b
      if t.started.isNone || d.pwr.pfail.isSome || d.therm.tripped || !d.railsIdle || d.dram.freq.isSome
          || (!rising && b == .listen && d.flashBusy) then d
      else if !d.railsReady b rising then
        if rising then d.raiseRails now b else forEach d [0, 1, 2] fun d r => d.commandRail now r
      else d.arriveAt now t b

/-! ### The transition item (R33) -/

/-- A transition that leaves RUN fits ahead of the items of every partition, with none running. -/
def Device.transFits (d : Device) (now : Nat) (to_ : Power) : Bool :=
  d.pwr.state != .run || (List.range 16).all fun p =>
    let q := d.part p
    let l := d.load now p false
    q.reset.isNone && (q.allItems.isEmpty
      || (q.running.isNone && ({ l with front := l.front + transNs 4 d.pwr.state to_ } : Load).fits now none 0))

/-- TRANSITION_ITEM_START: a transition that waits starts once `fits` holds with it in place and no Tier 1 run is left
(R33, R366). -/
def execTransitionItemStart (s : State) : Host.Outcome State Fault Refusal :=
  s.act fun now d =>
    match d.pwr.trans with
    | none => d
    | some t =>
      if t.started.isNone && d.pwr.pfail.isNone && !d.therm.tripped && d.railsIdle && d.dram.freq.isNone && d.cas.tier1.isNone
          && d.cas.waiting.isNone && d.transFits now t.to_ then d.startHop now
      else d

/-! ### POWER_STATE and BATTERY_BUDGET (R256, R258) -/

def powerOf : Nat → Power
  | 0 => .run | 1 => .hush | 2 => .listen | 3 => .ember | _ => .off

/-- Mains has been stable for 2 s. -/
def PowerSt.mainsStable (p : PowerSt) (now : Nat) : Bool := p.mains && (p.mainsAt == 0 || decide (p.mainsAt + 2000000000 ≤ now))

/-- A POWER_STATE is refused. -/
def Device.powerRefused (d : Device) (now : Nat) (to_ : Power) : Bool :=
  let up := to_ == .run || to_ == .hush
  d.pwr.trans.isSome || d.pwr.handOver || d.pwr.pfail.isSome || (up && (d.pwr.onBattery || !d.pwr.mainsStable now))
    || (to_ == .run && (d.therm.degrade || d.supplyAlarm)) || (to_ == .off && d.ten.state == .open_)
    || (!up && d.ten.state == .scrubbing)

/-- POWER_STATE (R256): one that raises the state starts at once; the state in force is answered at once. -/
def execPowerState (s : State) : Host.Outcome State Fault Refusal :=
  hostCmd 0x60 s fun now p d =>
    let code := (p.w 2).fld 2 0
    let to_ := powerOf code
    d.checked now p.id
      [(p.bad 1 || rsvBits (p.w 2) 63 3 || decide (4 < code), stBadParam), (d.notServed 0x60 || d.powerRefused now to_, stRefusedState)]
      fun d =>
        let d := { d with cas := { d.cas with raised := false, linger := none } }
        if to_ = d.pwr.state then d.answer now p.id stOk [BitVec.ofNat 64 to_.num, 0] else d.askTransition now to_ (some p.id)

/-- BATTERY_BUDGET (R258). -/
def execBatteryBudget (s : State) : Host.Outcome State Fault Refusal :=
  hostCmd 0x62 s fun now p d =>
    d.checked now p.id [(p.bad 1 || rsvBits (p.w 2) 63 32, stBadParam), (d.notServed 0x62, stRefusedState)] fun d =>
      let d := { d with pwr := { d.pwr with budget := (p.w 2).fld 31 0 } }
      d.answer now p.id stOk [BitVec.ofNat 64 (if d.pwr.onBattery then d.pwr.remainder else d.pwr.budget)]

/-! ### Mains and battery (R385–R388) -/

/-- Time for which a level must hold to be accepted. -/
def debounceNs : Nat := 50000000
/-- The count of R387, and the time of R375. -/
def mainsCountNs : Nat := 2000000000

/-- PWR_MAINS_CHANGE: a low level, however brief, stops the count (R387). -/
def execPwrMainsChange (level : Bool) (s : State) : Host.Outcome State Fault Refusal :=
  s.act fun now d =>
    if level = d.pwr.mains then d
    else
      let d := { d with pwr := { d.pwr with mains := level, mainsAt := now } }
      if level then d
      else { d with pwr := { d.pwr with count := none, countStopped := d.pwr.countStopped || d.pwr.count.isSome } }

/-- PWR_MAINS_ACCEPT: the level has held for 50 ms. A fall starts a hand-over while PWR_BATT is high; a rise starts the count
of an episode. -/
def execPwrMainsAccept (s : State) : Host.Outcome State Fault Refusal :=
  s.act fun now d =>
    if !d.aon.up || d.pwr.mains = d.pwr.mainsAcc || now < d.pwr.mainsAt + debounceNs then d
    else
      let d := { d with pwr := { d.pwr with mainsAcc := d.pwr.mains, mainsAccAt := now, countStopped := false, count := none } }
      if d.pwr.mains then
        if d.pwr.onBattery && !d.pwr.handOver then { d with pwr := { d.pwr with count := some now } } else d
      else if d.pwr.battAcc && d.ready then d.mainsFell now
      else d

/-- MAINS_COUNT_RESTART: PWR_MAINS has been high again for 50 ms after a low that was not accepted. -/
def execMainsCountRestart (s : State) : Host.Outcome State Fault Refusal :=
  s.act fun now d =>
    if d.pwr.countStopped && d.pwr.mains && d.pwr.mainsAcc && decide (d.pwr.mainsAt + debounceNs ≤ now) then
      { d with pwr := { d.pwr with count := some now, countStopped := false } }
    else d

/-- MAINS_COUNT_COMPLETE: the episode ends. -/
def execMainsCountComplete (s : State) : Host.Outcome State Fault Refusal :=
  s.act fun now d =>
    match d.pwr.count with
    | none => d
    | some t =>
      if d.pwr.onBattery && decide (t + mainsCountNs ≤ now) then
        ({ d with pwr := { d.pwr with onBattery := false, count := none, countStopped := false } } : Device).setCause causeState
      else d

/-- MAINS_STABLE_WAKE: PWR_MAINS has been accepted high for 2 s in a state entered under PFAIL_N or shutdown (R375). -/
def execMainsStableWake (s : State) : Host.Outcome State Fault Refusal :=
  s.act fun now d =>
    if d.pwr.enteredByLoss && d.pwr.mainsAcc && decide (max d.pwr.mainsAccAt d.pwr.since + mainsCountNs ≤ now) then d.wakeUp now else d

/-- PWR_BATT_ACCEPT: a level of PWR_BATT has held for 50 ms. During an episode a fall does nothing here (R388). -/
def execPwrBattAccept (level : Bool) (s : State) : Host.Outcome State Fault Refusal :=
  s.act fun _ d => { d with pwr := { d.pwr with battAcc := level } }

/-! ### PFAIL_N (R389, R390) -/

/-- PFAIL_ASSERT: PFAIL_N has been low for 2 µs. A start that is not complete ends in OFF. -/
def execPfailAssert (s : State) : Host.Outcome State Fault Refusal :=
  s.act fun now d =>
    if !d.aon.up || d.aon.porstLow then d
    else
      let d := { d with pwr := { d.pwr with pfailLow := true } }
      if d.therm.tripped || d.aon.boot = .down then d
      else if d.aon.boot ≠ .done then
        let d := d.enterOff now
        { d with pwr := { d.pwr with enteredByLoss := true } }
      else d.beginPfail now false

/-- PFAIL_GATE: meres and flash are drained; the journal is committed and the domains gated. -/
def execPfailGate (s : State) : Host.Outcome State Fault Refusal :=
  s.act fun now d =>
    match d.pwr.pfail with
    | none => d
    | some p =>
      let railed := d.pwr.state != .ember || d.peat.tail.isEmpty || ((d.rail 2).trans.isNone && decide (550 ≤ (d.rail 2).mv))
      if d.flashBusy || !railed then d else d.gateAll now p.toOff

/-- PFAIL_RISE: PFAIL_N stays high. The device stays where it is until a cause of R375. -/
def execPfailRise (s : State) : Host.Outcome State Fault Refusal :=
  s.act fun _ d =>
    { d with pwr := { d.pwr with pfailLow := false }, pace := { d.pace with pfailAlarm := false } }

/-! ### The host wakes the device (R375) -/

/-- PERST_DEASSERT: PERST_N is high again. After at least 100 µs low, with the PCIe port active, EMBER and OFF are left. -/
def execPerstDeassert (s : State) : Host.Outcome State Fault Refusal :=
  s.act fun now d =>
    match d.aon.perstLow with
    | none => d
    | some t =>
      let d := { d with aon := { d.aon with perstLow := none } }
      if !d.aon.bootSel && decide (t + 100000 ≤ now) then d.wakeUp now else d

/-- XSPI_CS_WAKE: the chip select has been low for `lowNs`, with the xSPI port active. -/
def execXspiCsWake (lowNs : Nat) (s : State) : Host.Outcome State Fault Refusal :=
  s.act fun now d => if d.aon.bootSel && decide (1000 ≤ lowNs) then d.wakeUp now else d

end Sys2Proof.Machine
end

