-- ==== Sys2Proof/Machine/Boot.lean ====
section
/-! DEFINITION. Power-up and power-down (R305–R308, R383, R424, R456–R461): the cold start, the mount of peat, PORST_N, the
hard trip and the loss of the clock or of the always-on supply. -/

namespace Sys2Proof.Machine

/-! ### PORST_N (R452, R458, R461) -/

/-- PORST_ASSERT: PORST_N has been low for 10 µs. Everything but the always-on domain is reset, the rails go to 0 V, the
tenant's key is destroyed and the escalation counts are cleared (R400). -/
def execPorstAssert (s : State) : Host.Outcome State Fault Refusal :=
  s.act fun now d =>
    if !d.aon.up || d.aon.porstLow then d
    else
      let d := (d.abandonTenant now).coldReset now
      let d := d.setPower .off
      { d with
        aon := { d.aon with porstLow := true, porstAt := now, boot := .down, gpio0 := false, gpio1 := false
                            thermAlert := false, devResets := [] }
        parts := [], port := { d.port with cause := 0 }
        pace := { d.pace with pfailAlarm := false }
        therm := { d.therm with tripped := false, degrade := false, coolSince := none }
        hub := { d.hub with oos := false }
        pwr := { d.pwr with since := now, pfail := none, onBattery := false, count := none, countStopped := false
                            enteredByLoss := false, budget := noBudgetLimit } }

/-- PORST_RELEASE, the cold start: BOOT_SEL is latched, the fuse banks are read (R408), the tables of the I3C buses are cleared (R445)
and GPIO0 rises. -/
def execPorstRelease (bootSel bank0Ok bank1Ok : Bool) (s : State) : Host.Outcome State Fault Refusal :=
  s.act fun now d =>
    if !d.aon.up || !d.aon.porstLow then d
    else
      let d := { d with
        aon := { d.aon with porstLow := false, bootSel := bootSel, fuseBank := !bank0Ok && bank1Ok
                            fusesLost := !bank0Ok && !bank1Ok, devResets := [] }
        hub := { d.hub with oos := false }, i3c := [] }
      let d := d.leaveOff now
      if bank0Ok && bank1Ok then d
      else if !bank0Ok && !bank1Ok then d.deviceOut now fcFuseBank
      else d.deviceFault now fcFuseBank (b2n bank0Ok) 0

/-! ### The cold start (R458) -/

/-- POWER_ON_TIMER: 32 cycles after the always-on supplies come up, the always-on domain leaves reset (R9). -/
def execPowerOnTimer (s : State) : Host.Outcome State Fault Refusal :=
  .next (if s.dev.aon.up then s else { s with now := 0, dev := { s.dev with aon := { s.dev.aon with up := true } } })

/-- VDD_HUB_RAISE: 5 ms after GPIO0 has risen VDD_HUB is written 0.80 V, and again where it failed to settle. -/
def execVddHubRaise (s : State) : Host.Outcome State Fault Refusal :=
  s.act fun now d =>
    if (d.aon.boot == .released || d.aon.boot == .hubRail) && decide (d.aon.bootAt + 5000000 ≤ now) && (d.rail 2).trans.isNone
        && decide ((d.rail 2).mv < 800) then
      ({ d with aon := { d.aon with boot := .hubRail } } : Device).modRail 2 fun x =>
        { x with cmd := 800, trans := some ⟨true, [], [], 800, .settling, now⟩ }
    else d

/-- VDD_HUB has settled, and 20 µs have passed. -/
def RailSt.hubReady (x : RailSt) (now : Nat) : Bool :=
  decide (800 ≤ x.mv) && match x.trans with
    | none => true
    | some t => t.phase == .settled && decide (t.since + 20000 ≤ now)

/-- HUB_RELEASE: the hub runs, entropy start-up begins, flash is powered, the rails of the halves rise and the buses make
their first attempts, with the addresses given since the cold start (R440, R445). -/
def execHubRelease (s : State) : Host.Outcome State Fault Refusal :=
  s.act fun now d =>
    if d.aon.boot != .hubRail || !(d.rail 2).hubReady now then d
    else
      let first (b : Nat) : I3c := { I3c.init with nextTry := some now, table := (d.i3c.get I3c.init b).table }
      let d := { d with
        aon := { d.aon with boot := .hubUp, gpio1 := true }
        sec := { d.sec with startAt := some now, entropyReady := false, fails := 0, failed := false }
        hub := { d.hub with hubResetAt := now }
        i3c := [(0, first 0), (1, first 1)] }
      d.fusedSeeds.raiseRails now .run

/-- TRAINING_COMPLETE (R273): memory is trained, or the device goes out of service (R269, R274). -/
def execTrainingComplete (popOk : Bool) (kit : DramKit) (last : RankSet) (results : List RankResult) (lowFails : List (Half × RankSet))
    (s : State) : Host.Outcome State Fault Refusal :=
  s.act fun now d =>
    if d.aon.boot != .hubUp then d
    else
      let d := d.dramTrained now popOk kit last.val results lowFails
      { d with aon := { d.aon with boot := .trained }, dram := { d.dram with selfRefresh := d.hub.oos } }

/-! ### The mount (R304–R308) -/

/-- The journal as the mount reads it (R305): the pages of a ring, with the other's for those that read uncorrectable, then the tail. -/
def Peat.journal (p : Peat) (bad : List (FlashCh × Nat)) : List JRec :=
  let ring (c : Nat) : List JRec :=
    ((p.rings.get [] c).filter fun j => !bad.any fun b => b.1.toNat == c && b.2 == j.num).flatMap (·.recs)
  (ring 0 ++ ring 2 ++ p.tail.map (·.2)).eraseDups

/-- INTENT records without a DONE whose block has not been erased or retired since (R304). -/
def interrupted (rs : List JRec) : List JRec :=
  rs.filter fun r => jKind r == jIntent && !rs.any fun q =>
    (jKind q == jDone && jSeq q == jSeq r)
      || ((jKind q == jErased || jKind q == jRetired) && physKey (jPhys q) == physKey (jPhys r) && decide (jSeq r < jSeq q))

/-- R304 for a program that was interrupted: the page is never used, its block erased before it is programmed again. -/
def Device.logInterrupted (d : Device) (now : Nat) (r : JRec) : Device :=
  let ph := jPhys r
  (d.logFault now fcPeatInterrupted none none (jLpn r) ph).modPeat fun p =>
    { p.modBlock (physKey ph) (fun b => { b with interrupted := true }) with
      openBlk := p.openBlk.modify none (8 * physCh ph + physTgt ph) fun o => if o = some (physBlk ph) then none else o }

/-- Of the records of each logical page that `keep` picks, the one of greatest SEQ. -/
def newestOf (rs : List JRec) (keep : JRec → Bool) : SMap (Option JRec) :=
  rs.foldl (fun m r => if keep r && (m.get none (jLpn r)).all (fun q => decide (jSeq q < jSeq r)) then m.set none (jLpn r) (some r) else m) []

/-- The 32-bit entries of a page that are not `skip`, with their places. -/
def pageEntries (data : List Byte) (skip : Nat) : List (Nat × Nat) :=
  ((List.range 4096).map fun k => (k, leAt data (4 * k) 4)).filter fun e => e.2 != skip

/-- Steps 3 and 4 of the mount (R305): the device-area pages by their newest DONE, the map pages among them, then every data page's DONE
and RELEASE of a later SEQ. -/
def Peat.readMap (p : Peat) (rs : List JRec) : Peat :=
  let dev := newestOf rs fun r => jKind r == jDone && devLpn (jLpn r)
  let p := { p with dev := dev.filterMap fun (e : Nat × Option JRec) => e.2.map fun r => (e.1, some (jPhys r)) }
  let base : SMap (Option Nat) := (dev.filter fun (e : Nat × Option JRec) => isMapPage e.1).flatMap fun e =>
    (pageEntries (p.readPage e.1) unmapped).map fun x => (4096 * (e.1 - 0xF8000000) + x.1, some x.2)
  let later (r : JRec) : Bool := !devLpn (jLpn r) && (jKind r == jDone || jKind r == jRelease)
    && (dev.get none (mapLpn (jLpn r))).all fun q => decide (jSeq q < jSeq r)
  { p with map := (newestOf rs later).foldl (fun (m : SMap (Option Nat)) (e : Nat × Option JRec) => match e.2 with
      | some r => m.set none e.1 (if jKind r = jDone then some (jPhys r) else none)
      | none => m) base }

/-- The erase counts and the table of retired blocks, from the table pages and the records of a later SEQ (R305). -/
def Peat.readTables (p : Peat) (rs : List JRec) : Peat :=
  let dev := newestOf rs fun r => jKind r == jDone && isTablePage (jLpn r)
  dev.foldl (fun (p : Peat) (e : Nat × Option JRec) => match e.2 with
    | none => p
    | some q => (pageEntries (p.readPage e.1) 0).foldl (fun p x =>
        let i := 4096 * (e.1 - 0xFC000000) + x.1
        let k := blockKey (i / 2048) (i / 256 % 8) (i % 256)
        let mine (kind : Nat) : List JRec := rs.filter fun r => jKind r == kind && physKey (jPhys r) == k && decide (jSeq q < jSeq r)
        p.modBlock k fun b => { b with
          erases := x.2 % 2 ^ 31 + (mine jErased).length, retired := decide (2 ^ 31 ≤ x.2) || !(mine jRetired).isEmpty }) p) p

/-- Both rings hold what the one that is further on holds. -/
def Peat.levelRings (p : Peat) : Peat :=
  let u := max (p.ringUpto.get 0 0) (p.ringUpto.get 0 2)
  let r := p.rings.get [] (if p.ringUpto.get 0 2 ≤ p.ringUpto.get 0 0 then 0 else 2)
  let p := { p with rings := (p.rings.set [] 0 r).set [] 2 r, ringUpto := (p.ringUpto.set 0 0 u).set 0 2 u }
  p.settle

/-- A valid journal page stands in some ring (R308). -/
def Peat.hasJournal (p : Peat) : Bool := p.rings.any fun e => !e.2.isEmpty

/-- ALLOC_PAGES of the board record. -/
def Peat.boardAlloc (p : Peat) : Nat := (wordAt p.board 5).fld 31 0
/-- Pages that the host and allocation areas may take together. -/
def Peat.areaPages (p : Peat) : Nat := p.goodPages * 15 / 16

/-- The boot area is read (R306): the record of the first copy that yields a valid one with its Ubtur image, and the checks on it. -/
def Device.checkBoard (d : Device) (now : Nat) : Device :=
  match d.peat.bootCopy with
  | none => (d.logFault now fcBootArea none none 0 0).deviceOut now fcBootArea
  | some c =>
    let d := d.modPeat fun p => { p with board := c.board }
    let p := d.peat
    if p.areaPages < p.hostPages then d.deviceOut now fcHostAreaSize
    else if p.areaPages < p.hostPages + p.boardAlloc then
      (d.logFault now fcPeatCapacity none none 0 0).modPeat fun p => { p with allocPages := p.areaPages - p.hostPages }
    else d.modPeat fun p => { p with allocPages := p.boardAlloc }

/-- Targets that fail R294 are left unused. -/
def Device.rejectTargets (d : Device) (now : Nat) (l : List (FlashCh × BitVec 3)) : Device :=
  let d := forEach d l fun d e => d.logFault now fcFlashRejected none none e.1.toNat e.2.toNat
  d.modPeat fun p => { p with rejected := l.map fun e => 8 * e.1.toNat + e.2.toNat }

/-- READY (R458): RUN, every domain at the pace set; on battery the drop to LISTEN follows. -/
def Device.enterReady (d : Device) (now : Nat) : Device :=
  let d := d.creditWatch fun d => { d with aon := { d.aon with boot := .done } }
  let d := d.setPower .run
  let d := if d.hub.oos then { d with dram := { d.dram with selfRefresh := true, refreshFrom := now } } else d.exitSelfRefresh now
  let d := d.askScrub now
  let d := { d with
    dram := { d.dram with low := false }
    peat := { d.peat with mounted := true }
    hub := { d.hub with resetting := none }
    pwr := { d.pwr with since := now, enteredByLoss := false } }.setCause causeState
  let d := d.setPaces now (domains.map fun i => (i, d.goal i (d.setOf i)))
  if d.hub.oos then d
  else if d.pwr.onBattery then d.askTransition now .listen none
  else if !d.pwr.mainsAcc && d.pwr.battAcc then d.mainsFell now
  else d

/-- The start can end: memory is trained, and every domain is powered. -/
def Device.mountable (d : Device) : Bool := d.aon.boot == .trained && domains.all fun i => (d.dom i).on

/-- Peat is mounted, and the device is ready. A domain that is not powered has its rail raised again. -/
def Device.mount (d : Device) (now : Nat) (rejected : List (FlashCh × BitVec 3)) (f : Device → Device) : Device :=
  if d.aon.boot != .trained then d
  else if !d.mountable then (if d.railsIdle then d.raiseRails now .run else d)
  else
    let d := ((d.rejectTargets now rejected).checkBoard now)
    (f d).enterReady now

/-- PEAT_MOUNT (R305): the map and tables are read, interrupted programs found, and with no scrub to come, pages of the allocation area
that no tenant can read any more are released (R424). -/
def execPeatMount (read : MountRead) (s : State) : Host.Outcome State Fault Refusal :=
  s.act fun now d =>
    if !d.peat.hasJournal then d
    else d.mount now read.rejected fun d =>
      let rs := d.peat.journal read.badRing
      let d := d.modPeat fun p => ((p.readMap rs).readTables rs).levelRings
      let d := forEach d (interrupted rs) fun d r => d.logInterrupted now r
      if d.ten.state = .closed then d.modPeat fun p => p.releaseAllocArea now else d

/-- The usable blocks of a channel in the order of R307: the target varies fastest. -/
def Peat.prodBlocks (p : Peat) (ch : Nat) : List (Nat × Nat) :=
  let us := (List.range 8).map fun t => p.usable ch t
  (List.range blocksPerTarget).flatMap fun b => (List.range 8).filterMap fun t =>
    if (us.getD t []).contains b then some (t, b) else none

/-- The map of production pages (R307). -/
def Peat.prodMap (p : Peat) : SMap (Option Nat) :=
  let vs := (List.range 4).map p.prodBlocks
  (List.range p.prodPages).map fun n =>
    let j := n / 4
    let v := (vs.getD (n % 4) []).getD (j / pagesPerBlock) (0, 0)
    (n, some (physPage (n % 4) v.1 v.2 (j % pagesPerBlock)))

/-- A block that holds production pages is programmed as far as they reach. -/
def Peat.prodUsed (p : Peat) : Peat :=
  p.prodMap.foldl (fun p e => match e.2 with
    | some ph => p.modBlock (physKey ph) fun b => { b with next := max b.next (ph % pagesPerBlock + 1) }
    | none => p) p

/-- A device-area page is programmed at once, with its records. -/
def Peat.programNow (p : Peat) (now lpn : Nat) : Peat :=
  let c := p.channelOf lpn
  match p.place c with
  | none => p
  | some (t, b) =>
    let (ph, p) := p.take c t b
    let p := { p with seq := p.seq + 1 }
    let op : FlashOp := ⟨.program, lpn, ph, p.seq, [], now, now, false, 0⟩
    (p.append now p.seq lpn jIntent ph).programmed now { op with data := p.opData op }

/-- The map pages of the host and allocation areas, and the table pages of the targets. -/
def Peat.areaLpns (p : Peat) : List Nat :=
  rangeFrom 0xF8000000 (cdiv (p.hostPages + p.allocPages) 4096) ++ rangeFrom 0xFC000000 (4 * 8 * blocksPerTarget / 4096)

/-- FIRST_BOOT_MOUNT (R308): factory bad blocks are read, the map built for the production pages; the map pages, the table pages and a
first journal page are written. -/
def execFirstBootMount (badBlocks : List (BitVec 32)) (rejected : List (FlashCh × BitVec 3)) (s : State) :
    Host.Outcome State Fault Refusal :=
  s.act fun now d =>
    if d.peat.hasJournal then d
    else
      let mark (p : Peat) : Peat := badBlocks.foldl (fun p b => p.modBlock (physKey b.toNat) fun x => { x with retired := true }) p
      let d' := if d.mountable then d.modPeat mark else d
      d'.mount now rejected fun d => d.modPeat fun p =>
        let p := { p.prodUsed with map := p.prodMap }
        (p.areaLpns.foldl (fun p l => p.programNow now l) p).commitTail

/-! ### The hard trip and the clock (R383, R457) -/

/-- Every domain but the always-on domain is gated; nothing is answered until a cold start. -/
def Device.trip (d : Device) (now : Nat) : Device :=
  let key := d.ten.key
  let d := d.coldReset now
  { d with
    aon := { d.aon with boot := .down, thermAlert := true, gpio1 := false }
    ten := { d.ten with key := key }
    therm := { d.therm with tripped := true }
    pwr := { d.pwr with pfail := none } }

/-- HARD_TRIP: the analogue trip at 125 °C. -/
def execHardTrip (s : State) : Host.Outcome State Fault Refusal :=
  s.act fun now d => if !d.aon.up || d.therm.tripped then d else d.trip now

/-- REFCLK_LOSS: device time holds, HUB_FAULT is logged with unit 0 and cause 1, and the domains are gated. -/
def execRefclkLoss (s : State) : Host.Outcome State Fault Refusal :=
  s.act fun now d =>
    if !d.aon.up || !d.aon.refclk then d
    else
      let d := (d.logFault now fcHubFault none none 0 1).trip now
      { d with aon := { d.aon with refclk := false } }

/-- REFCLK_RETURN: device time resumes from the held value. -/
def execRefclkReturn (s : State) : Host.Outcome State Fault Refusal :=
  s.act fun _ d => { d with aon := { d.aon with refclk := true } }

/-! ### Loss of the always-on supply (R166, R371, R424, R460) -/

/-- The journal tail is lost, and with it how far each ring holds it; the map is read again from the rings (R305). -/
def Peat.loseTail (p : Peat) : Peat :=
  let u := max (p.ringUpto.get 0 0) (p.ringUpto.get 0 2)
  { p with map := [], dev := [], tail := [], appended := u, committed := u }

/-- ALWAYS_ON_SUPPLY_LOSS: loss of power. Flash, fuses and the key store keep what they hold, and the input pins their
levels. -/
def execAlwaysOnSupplyLoss (s : State) : Host.Outcome State Fault Refusal :=
  s.act fun _ d =>
    let n := Device.init
    { n with
      aon := { n.aon with up := false, refclk := d.aon.refclk, perstLow := d.aon.perstLow.map fun _ => 0 }
      port := { n.port with epoch := d.port.epoch + 1, msixSent := d.port.msixSent }
      pwr := { n.pwr with mains := d.pwr.mains, mainsAcc := d.pwr.mains, battAcc := d.pwr.battAcc, pfailLow := d.pwr.pfailLow }
      therm := { n.therm with tj := d.therm.tj }
      fab := d.fab.restart
      dram := d.dram.unpowered
      peat := d.peat.unmounted.loseTail
      hub := { n.hub with laneUsed := d.hub.laneUsed, laneLost := d.hub.laneLost, rowMarked := d.hub.rowMarked, rowSpares := d.hub.rowSpares }
      sec := { n.sec with ownerKey := d.sec.ownerKey, kin := d.sec.kin, lastCounter := d.sec.lastCounter, draws := d.sec.draws }
      freeCount := d.freeCount }

end Sys2Proof.Machine
end

