-- ==== Sys2Proof/Machine/Thermal.lean ====
section
/-! DEFINITION. Temperature (R379–R383): the samples, the caps, THERMAL_DEGRADE and the controlled shutdown. -/

namespace Sys2Proof.Machine

def Die.num : Die → Nat
  | .hub => 0 | .half0 => 1 | .half1 => 2

/-- Where a die's Tj lies for its cap (R380): 2 at 107 °C and above, 0 at 102 °C and below. -/
def capZone (tj : Int) : Nat := if 107 * 16 ≤ tj then 2 else if tj ≤ 102 * 16 then 0 else 1

/-- The Tj of a die is its highest reading. -/
def highest (l : List Int) : Int := (l.max?).getD 0

/-- A die's Tj is taken; a change of zone restarts the time of its cap. -/
def Thermal.take (t : Thermal) (now die : Nat) (tj : Int) : Thermal :=
  { t with
    tj := t.tj.set 0 die tj
    capAt := if capZone (t.tj.get 0 die) = capZone tj then t.capAt else t.capAt.set 0 die now }

/-- THERMAL_DEGRADE is raised (R381). -/
def Device.degrade (d : Device) (now : Nat) : Device :=
  ({ d with therm := { d.therm with degrade := true } }.raise now 2 0x0010
    (mkWord [((d.therm.device.fdiv 16 % 65536).toNat, 0)]) 0).markMet

/-- The controlled shutdown starts (R382). A start that is not complete ends at once. -/
def Device.shutDown (d : Device) (now : Nat) : Device :=
  let d := d.deviceFault now fcThermalShutdown (d.therm.device.fdiv 16).toNat 0
  if d.aon.boot ≠ .done then
    let d := d.enterOff now
    { d with pwr := { d.pwr with enteredByLoss := true } }
  else d.beginPfail now true

/-- The sensors are read every 100 µs; OFF is left only with Tj at most 95 °C, so they are read in OFF, too. -/
def Device.reading (d : Device) : Bool := d.aon.up

/-- Readings lead to caps, alarms and the controlled shutdown. -/
def Device.sensing (d : Device) : Bool := d.aon.up && !d.aon.porstLow && !d.therm.tripped && d.aon.boot != .down

/-- A controlled shutdown runs. -/
def Device.shutting (d : Device) : Bool := d.pwr.pfail.any (·.toOff)

/-- The readings of a die's sensors; a die that gives none keeps its value (log entry 92). -/
def Thermal.takeDie (t : Thermal) (now die : Nat) (l : List Int) : Thermal :=
  if l.isEmpty then t else t.take now die (highest l)

/-- THERMAL_SAMPLE: the readings of the three dies in 1/16 °C (R379). -/
def execThermalSample (hub half0 half1 : List Int) (s : State) : Host.Outcome State Fault Refusal :=
  s.act fun now d =>
    if !d.reading then d
    else
      let t := ((d.therm.takeDie now 0 hub).takeDie now 1 half0).takeDie now 2 half1
      let t := { t with coolSince := if t.device ≤ 105 * 16 then some (t.coolSince.getD now) else none }
      let d := { d with therm := t }
      if !d.sensing then d
      else
        let d := if 110 * 16 ≤ t.device ∧ !t.degrade then d.degrade now else d
        if 115 * 16 ≤ t.device ∧ !d.shutting then d.shutDown now else d

/-- THERMAL_DEGRADE_CLEAR: Tj has stayed at or below 105 °C for 1 s. -/
def execThermalDegradeClear (s : State) : Host.Outcome State Fault Refusal :=
  s.act fun now d =>
    match d.therm.coolSince with
    | none => d
    | some t =>
      if d.therm.degrade && decide (t + 1000000000 ≤ now) then
        let d := { d with therm := { d.therm with degrade := false } }
        d.setPaces now ((domains.filter fun i => (d.dom i).on).map fun i => (i, d.statePace d.layout i))
      else d

/-- The highest pace set on a die's domains. -/
def Device.dieSet (d : Device) (die : Nat) : Nat := (((domains.filter fun i => dieOf i == die).map d.setOf).max?).getD 0

/-- A die takes a new cap, and its domains their paces under it (R380). -/
def Device.putCap (d : Device) (now die cap : Nat) : Device :=
  let d := { d with therm := { d.therm with cap := d.therm.cap.set 7 die cap, capAt := d.therm.capAt.set 0 die now } }
  d.setPaces now ((domains.filter fun i => dieOf i == die && (d.dom i).on).map fun i => (i, d.statePace d.layout i))

/-- THERMAL_CAP_FALL: 10 ms at 107 °C or more. -/
def execThermalCapFall (die : Die) (s : State) : Host.Outcome State Fault Refusal :=
  s.act fun now d =>
    let n := Die.num die
    if d.sensing && capZone (d.therm.tj.get 0 n) == 2 && decide (d.therm.capAt.get 0 n + 10000000 ≤ now) then
      d.putCap now n (min (d.therm.cap.get 7 n) (d.dieSet n) - 1)
    else d

/-- THERMAL_CAP_RISE: 100 ms at 102 °C or less, up to the pace set. -/
def execThermalCapRise (die : Die) (s : State) : Host.Outcome State Fault Refusal :=
  s.act fun now d =>
    let n := Die.num die
    let c := d.therm.cap.get 7 n
    if d.sensing && c != 7 && capZone (d.therm.tj.get 0 n) == 0 && decide (d.therm.capAt.get 0 n + 100000000 ≤ now) then
      d.putCap now n (if d.dieSet n ≤ c + 1 then 7 else c + 1)
    else d

end Sys2Proof.Machine
end

