-- ==== Sys2Proof/Machine/Integrity.lean ====
section
/-! DEFINITION. Scans, the configuration digest, the dump as the host reads it, SPARE_MAP and the resets that the host commands
(R259, R260, R264–R267, R397, R400, R415–R421). -/

namespace Sys2Proof.Machine

/-! ### SCAN (R259, R415–R418) -/

/-- Distance between successive blocks. -/
def Scan.step (s : Scan) : Nat := if s.stride = 0 then 64 else s.stride
/-- Blocks of a scan (R416). -/
def Scan.blocks (s : Scan) : Nat := s.len / 64
/-- Allocation offset of block `i`. -/
def Scan.at_ (s : Scan) (i : Nat) : Nat := s.off + i * s.step
/-- Bytes of the allocation that a scan reaches. -/
def Scan.reach (s : Scan) : Nat := s.at_ (s.blocks - 1) + 64

/-- The fold prefix of block `i` (R416). -/
def Scan.prefix_ (s : Scan) (base i : Nat) : List Byte :=
  match s.fold with
  | 1 => leBytes 6 (base + s.at_ i)
  | 2 => leBytes 6 ((s.first + i) % 2 ^ 48)
  | _ => []

/-- The stream of a scan. -/
def Device.scanStream (d : Device) (a : Alloc) (s : Scan) : List Byte :=
  (List.range s.blocks).flatMap fun i => s.prefix_ a.base i ++ d.readBytes a (s.at_ i) 64

/-- The check value. -/
def Scan.check (s : Scan) (bs : List Byte) : Nat := if s.alg = 0 then crc32c bs else crc64nvme bs

/-- Scans queued on a unit. -/
def Device.scansQueued (d : Device) (u : Nat) : Nat := (d.hub.scanQ.get [] u).length

/-- SCAN: queued on its unit, or on the one with fewer scans (R259, R417). -/
def execScan (s : State) : Host.Outcome State Fault Refusal :=
  hostCmd 0x68 s fun now p d =>
    let w := p.w 2
    let unit := w.fld 33 32
    let x : Scan := ⟨p.id, handleSlot w, 0, w.fld 35 34, w.fld 37 36, (p.w 3).toNat, (p.w 4).toNat, (p.w 5).toNat, (p.w 6).fld 47 0⟩
    let own := p.bad 5 || handleBad w || unit == 3 || decide (1 < x.alg) || x.fold == 3 || rsvBits w 63 38 || x.off % 64 != 0
      || x.len % 64 != 0 || x.len == 0 || x.stride % 64 != 0 || rsvBits (p.w 6) 63 48 || (x.fold != 2 && p.w 6 != 0)
    match d.byHandle w with
    | none => d.answer now p.id (if own then stBadParam else stStaleGen) []
    | some a =>
      d.checked now p.id [(own || decide (a.bytes < x.reach), stBadParam), (d.notServed 0x68, stRefusedState)] fun d =>
        let u := match unit with
          | 1 => 0
          | 2 => 1
          | _ => if d.scansQueued 1 < d.scansQueued 0 then 1 else 0
        { d with hub := { d.hub with scanQ := d.hub.scanQ.modify [] u fun q => q ++ [{ x with allocGen := a.gen }] } }

/-- The pages and lines that a scan reads. -/
def Scan.lines (s : Scan) (a : Alloc) : List (Nat × List Nat) :=
  if s.step = 64 then pageLines (a.base + s.off) s.len else (List.range s.blocks).flatMap fun i => pageLines (a.base + s.at_ i) 64

/-- A scan unit's engine asks for what it reads, with the scan horizon: the bridge port and slices of the home mere, and of lines that are
not there DRAM and the flash channels (R36, R417). Fresh pages need no access. -/
def Device.askScan (d : Device) (now u : Nat) (a : Alloc) (s : Scan) : Device :=
  let hb := flagHalf a.flags
  let job : Job := ⟨none, none, .scan u⟩
  let lst := lstOf now (now + 10000000)
  let d := { d with arb := { d.arb with reqs := d.arb.reqs.filter fun r => r.job.what != .scan u } }
  forEach d (s.lines a) fun d x =>
    let staged := d.mem.staged.get false x.1
    let absent := x.2.filter fun l => !d.resident hb (x.1 * 512 + l)
    let plait := match d.mem.form.get .fresh x.1 with | .plait _ => !staged | _ => false
    let units := if d.mem.form.get .fresh x.1 = .fresh && !staged || absent.isEmpty then [] else fillUnits plait x.2 absent
    let homes := units.map fun n => d.homeRead a x.1 n.1 n.2
    let d := d.requests now ((sliceHops (halfNum hb) 1 x.2).map fun s => [hop .bridge 0 0 (cdiv s.units 2), s]) lst job
    let d := d.requests now (homes.flatMap fun h => dramLines (halfNum hb) h.phys portScan h.lines) lst job
    d.requests now (((homes.flatMap (·.lpns)).eraseDups.filterMap d.peat.lookup).map fun ph => [hop .flashChannel (physCh ph) 3 2]) lst job

/-- SCAN_START: a free unit starts the scan that was admitted first. -/
def execScanStart (unit : Half) (s : State) : Host.Outcome State Fault Refusal :=
  s.act fun now d =>
    let u := b2n unit
    match d.hub.scanQ.get [] u with
    | [] => d
    | x :: q =>
      if !d.hubServes || (d.hub.scanRun.get none u).isSome then d
      else
        let d := { d with hub := { d.hub with scanQ := d.hub.scanQ.set [] u q, scanRun := d.hub.scanRun.set none u (some x) } }
        match d.alloc? x.slot with
        | none => d
        | some a => d.askScan now u a x

/-- The first block of a scan that cannot be read, and why. -/
def Device.scanBad (d : Device) (a : Alloc) (s : Scan) : Option (Nat × Unread) :=
  (List.range s.blocks).findSome? fun i => (d.firstBad a (s.at_ i) 64).map fun u => (i, u)

/-- SCAN_COMPLETE, once every transfer of the scan has been granted: the check value of every block, or the first block that cannot be
read (R418). -/
def execScanComplete (unit : Half) (s : State) : Host.Outcome State Fault Refusal :=
  s.act fun now d =>
    let u := b2n unit
    match d.hub.scanRun.get none u with
    | none => d
    | some x =>
      if !d.hubServes || d.asking (.scan u) then d
      else
        let e := { d with hub := { d.hub with scanRun := d.hub.scanRun.set none u none } }
        match (d.alloc? x.slot).filter fun a => a.gen == x.allocGen with
        | none => e.answer now x.id stStaleGen []
        | some a => match d.scanBad a x with
          | some (i, u) => (e.logUnread now none none u).answer now x.id stFaulted [BitVec.ofNat 64 (x.at_ i)]
          | none =>
            let e := forEach e (x.lines a) fun d l => d.useLines now (flagHalf a.flags) l.1 l.2
            e.answer now x.id stOk [BitVec.ofNat 64 (x.check (d.scanStream a x)), BitVec.ofNat 64 x.blocks]

/-! ### The configuration digest (R260, R419–R421) -/

/-- A record of the canonical list; a kind with nothing to report is left out. -/
def digestRecord (kind : Nat) (ws : List Word) : List Word := if ws.isEmpty then [] else mkWord [(kind, 0), (ws.length, 16)] :: ws

/-- A word with a field taken as 0. -/
def dropField (w : Word) (hi lo : Nat) : Word := w - BitVec.ofNat 64 (w.fld hi lo * 2 ^ lo)

/-- A pipe block with handles and offsets taken as 0 (R333, R339). -/
def PipeBlock.plain (b : PipeBlock) : List Word :=
  let outs := [0, 1, 2, 3].flatMap fun j => [76 + 4 * j, 77 + 4 * j]
  (List.zipIdx b).map fun e => if e.2 = 7 then dropField e.1 31 0 else if e.2 = 8 ∨ outs.contains e.2 then 0 else e.1

/-- An audio block with handles and offset taken as 0 (R350). -/
def audioPlain (b : List Word) : List Word := b.zipIdx.map fun e => if e.2 = 1 then dropField e.1 63 32 else if 2 ≤ e.2 then 0 else e.1

/-- Blocks of the enabled camera and audio slots, ascending by target and slot. -/
def Device.sensorWords (d : Device) : List Word :=
  (List.range 8).flatMap (fun t => (List.range 4).flatMap fun n =>
      ((d.csi t).slots.filter (·.num == n)).flatMap fun x => [x.w3, x.w4])
    ++ (List.range 4).flatMap (fun i => (List.range 4).flatMap fun n =>
        ((d.pipe i).slots.filter (·.num == n)).flatMap fun x => PipeBlock.plain x.block)
    ++ (List.range 4).flatMap fun n => (d.aud.slots.filter (·.num == n)).flatMap fun x => audioPlain x.words

/-- The wake table: its words, the image's digest, and the IMAGE_ID that stands for T1_WEAVE. -/
def Device.tableWords (d : Device) : List Word :=
  match d.cas.table with
  | none => []
  | some t => t.words.drop 1 ++ [BitVec.ofNat 64 (leAt (sha384 t.image) 0 8),
      BitVec.ofNat 64 (((d.tier1Weave t).map (·.imageId)).getD 0)]

def rateCode : FullRate → Nat
  | .r6400 => 0 | .r5600 => 1 | .r4800 => 2

/-- The record list of the configuration in force (R419). -/
def Device.configRecords (d : Device) : List Word :=
  let ws := (d.weaves.map (·.2)).mergeSort fun a b => decide (a.imageId ≤ b.imageId)
  let imageOf (p : Nat) : Nat := ((d.boundWeave p).map (·.imageId)).getD 0
  digestRecord 0x01 [devIdWord &&& 0xFFFFFF, Config.versions.zeroExtend 64]
    ++ digestRecord 0x02 (Config.memoryRecord d.dram.settings (rateCode d.dram.rate) (d.halfDram 0).ranges.length
        (d.halfDram 1).ranges.length)
    ++ digestRecord 0x03 ((d.peat.board.drop 2).take 5)
    ++ digestRecord 0x04 (((d.sec.kin.map (·.1)).mergeSort fun a b => decide (a ≤ b)).map fun k => BitVec.ofNat 64 k)
    ++ digestRecord 0x05 (match d.sec.ownerKey with
        | none => []
        | some (x, y) => bytesWords 6 (sha384 (beBytes 48 x ++ beBytes 48 y)))
    ++ digestRecord 0x06 (ws.flatMap fun w => [BitVec.ofNat 64 w.imageId, BitVec.ofNat 64 w.kinSet, BitVec.ofNat 64 w.digest])
    ++ digestRecord 0x07 (((List.range 16).filter fun p => (d.part p).defined).flatMap fun p =>
        [{ d.part p with oos := false }.word p, BitVec.ofNat 64 (imageOf p)])
    ++ digestRecord 0x08 (bytesWords 5 (domains.map (fun i => BitVec.ofNat 8 (d.dom i).setPace) ++ List.replicate 5 0))
    ++ digestRecord 0x09 [BitVec.ofNat 64 d.pwr.budget]
    ++ digestRecord 0x0A d.tableWords
    ++ digestRecord 0x0B d.sensorWords

/-- The digest of the configuration in force. -/
def Device.configDigest (d : Device) : Word := BitVec.ofNat 64 (leAt (sha384 (wordsBytes d.configRecords)) 0 8)

/-- An epoch starts: the hub expects of it the digest of what has been committed before (R420). -/
def Device.openEpoch (d : Device) : Device := { d with hub := { d.hub with digWant := d.configDigest } }

/-- A half whose digest differs raises CONFIG_SKEW, and its copy is written again (R421). -/
def Device.skew (d : Device) (now epoch half : Nat) : Device :=
  (d.raise now 8 0x0071 (BitVec.ofNat 64 epoch) (BitVec.ofNat 64 half)).logFault now fcConfigSkew none none epoch half

/-- DIGEST_EPOCH: both halves complete their digest of an epoch; `none` is a half whose copy stands as committed (R420). -/
def execDigestEpoch (half0 half1 : Option Word) (s : State) : Host.Outcome State Fault Refusal :=
  s.act fun now d =>
    let e := now / 1000000000
    if !d.hubServes || d.hub.oos || e ≤ d.hub.digEpoch then d
    else
      let want := d.hub.digWant
      let a := half0.getD want
      let b := half1.getD want
      let d := { d with hub := { d.hub with digEpoch := e, dig0 := a, dig1 := b, digAgree := a == want && b == want } }
      let d := if a ≠ want then d.skew now e 0 else d
      if b ≠ want then d.skew now e 1 else d

/-- DIGEST (R260). -/
def execDigest (s : State) : Host.Outcome State Fault Refusal :=
  hostCmd 0x69 s fun now p d =>
    d.checked now p.id [(p.bad 0, stBadParam)] fun d =>
      d.answer now p.id stOk [BitVec.ofNat 64 d.hub.digEpoch, d.hub.dig0, d.hub.dig1, BitVec.ofNat 64 (b2n d.hub.digAgree)]

/-! ### DUMP_GET (R264, R397) -/

/-- Words of the dump. -/
def dumpWords : Nat := 32768

/-- Word `i` of the dump: the fault log is read live, the Ubtur trace is the release's own. -/
def Device.dumpWord (d : Device) (i : Nat) : Word :=
  if 64 ≤ i ∧ i < 1088 then wordAt (((d.aon.log[(i - 64) / 4]?).map LogRec.words).getD []) ((i - 64) % 4)
  else if 22592 ≤ i then (if d.hub.traceKept then Config.ubturTrace d.hub.dumpNumber i else 0)
  else d.hub.dump.get 0 i

/-- DUMP_GET. -/
def execDumpGet (s : State) : Host.Outcome State Fault Refusal :=
  hostCmd 0x7C s fun now p d =>
    let first := (p.w 2).fld 14 0
    let n := (p.w 2).fld 31 16
    d.checked now p.id
      [(p.bad 1 || (p.w 2).getLsbD 15 || rsvBits (p.w 2) 63 32 || n == 0 || decide (dumpWords < first + n), stBadParam)]
      fun d => d.answer now p.id stOk
        ([BitVec.ofNat 64 (d.hub.dumpNumber % 2 ^ 32), BitVec.ofNat 64 d.hub.dumpAt] ++ (rangeFrom first n).map d.dumpWord)

/-! ### PARTITION_RESET and SPARE_MAP (R265, R266) -/

/-- PARTITION_RESET: a compute reset without dump or count, or one that runs is joined. -/
def execPartitionReset (s : State) : Host.Outcome State Fault Refusal :=
  hostCmd 0x7D s fun now p d =>
    let n := (p.w 2).fld 3 0
    d.checked now p.id
      [(p.bad 1 || rsvBits (p.w 2) 63 4, stBadParam),
       (d.notServed 0x7D || !(d.part n).defined || (d.part n).oos, stRefusedState)]
      fun d => (d.startReset now n false).modPart n fun q =>
        { q with reset := q.reset.map fun r => { r with waits := r.waits ++ [p.id] } }

/-- Physical slot of a logical core of a bundle. -/
def Fabric.slotOf (x : Fabric) (b c : Nat) : Nat := (x.slots.get none (4 * b + c)).getD c

/-- Word 3 + b of SPARE_MAP. -/
def Fabric.spareWord (x : Fabric) (b : Nat) : Word :=
  mkWord [(x.slotOf b 0, 0), (x.slotOf b 1, 3), (x.slotOf b 2, 6), (x.slotOf b 3, 9), (b2n (x.spareUsed.get false b), 12),
    (b2n (x.degraded.get false b), 13)]

/-- SPARE_MAP. -/
def execSpareMap (s : State) : Host.Outcome State Fault Refusal :=
  hostCmd 0x7E s fun now p d =>
    let lost (h : Nat) : Nat := b2n (d.hub.stewards.get Stew.init h).lost
    let spare (h : Nat) : Nat := b2n (d.halfDram h).spareUsed.isSome
    d.checked now p.id [(p.bad 0, stBadParam)] fun d => d.answer now p.id stOk
      ((List.range 16).map d.fab.spareWord
        ++ [mkWord [(lost 0, 0), (lost 1, 1), (spare 0, 2), (spare 1, 3)], BitVec.ofNat 64 d.fab.knotSpares,
          mkWord [(d.hub.laneUsed.get 0 0, 0), (d.hub.laneUsed.get 0 1, 2)], BitVec.ofNat 64 d.peat.retiredBlocks,
          BitVec.ofNat 64 (b2n d.aon.fuseBank)])

/-! ### Resets of the device (R267, R400) -/

/-- Device-wide resets within 10 minutes that take the device out of service. -/
def devResetLimit : Nat := 8

/-- The eighth device-wide reset within 10 minutes takes the device out of service. -/
def Device.escalate (d : Device) (now cause : Nat) : Device :=
  if devResetLimit ≤ d.devResetCount now then d.deviceOut now cause else d

/-- A device-wide reset is counted. -/
def Device.noteDevReset (d : Device) (now : Nat) : Device :=
  { d with aon := { d.aon with devResets := d.aon.devResets ++ [now] } }
def Device.countDevReset (d : Device) (now cause : Nat) : Device := (d.noteDevReset now).escalate now cause

/-- A warm reset begins: memory keeps its training, and the mount follows. -/
def Device.beginWarm (d : Device) (now : Nat) : Device :=
  let d := d.warmReset now
  { d with aon := { d.aon with boot := .trained, bootAt := now }, hub := { d.hub with resetting := some false } }

/-- A FULL reset begins: as OFF to ready. -/
def Device.beginFull (d : Device) (now : Nat) : Device :=
  let d := d.coldReset now
  { d with
    aon := { d.aon with boot := .released, bootAt := now }
    parts := d.parts.mapV Part.init fun q => { Part.init with resetTimes := q.resetTimes }
    hub := { d.hub with resetting := some true }, pwr := { d.pwr with budget := noBudgetLimit } }

/-- A FULL reset tests again the causes of R401 that stand whatever it resets: the fuse banks and the bridge's lanes.
Training, mount and start-up test the others. -/
def Device.retest (d : Device) (now : Nat) : Device :=
  if d.aon.fusesLost then d.deviceOut now fcFuseBank
  else if d.hub.laneLost.isEmpty then d
  else d.deviceOut now fcBridgeLane

/-- An automatic warm reset (R400, R427): counted, the dump, and the tenant's key destroyed. -/
def Device.autoWarmReset (d : Device) (now : Nat) : Device :=
  let d := ((d.noteDevReset now).collectDump now none d.lastLog).abandonTenant now
  (d.escalate now fcHubFault).beginWarm now

/-- DEVICE_RESET: the reset follows once the reply has been read, or 10 ms after it was queued. -/
def execDeviceReset (s : State) : Host.Outcome State Fault Refusal :=
  hostCmd 0x7F s fun now p d =>
    let full := (p.w 2).getLsbD 8
    d.checked now p.id
      [(p.bad 1 || (p.w 2).fld 7 0 != 0xA5 || rsvBits (p.w 2) 63 9, stBadParam), (!full && d.ten.state == .open_, stRefusedState)]
      fun d =>
        let ask := d.hub.resetAsk.getD (full, p.id, none)
        ({ d with hub := { d.hub with resetAsk := some (ask.1 || full, ask.2) } } : Device).answer now p.id stOk []

/-- The reply to the DEVICE_RESET has been read whole, or 10 ms have passed since it was queued; a port reset that
discards it counts as read. -/
def Device.resetDue (d : Device) (now : Nat) (id : CmdId) (queued : Option (Nat × Nat)) : Bool :=
  match queued with
  | none => id.epoch != d.port.epoch
  | some (at_, rseq) =>
    id.epoch != d.port.epoch || decide (at_ + 10000000 ≤ now)
      || !d.port.replies.any fun r => (wordAt r (r.length - 1)).fld 63 32 == rseq

/-- DEVICE_RESET_BEGIN: a FULL reset closes an open tenant with its scrub first. -/
def execDeviceResetBegin (s : State) : Host.Outcome State Fault Refusal :=
  s.act fun now d =>
    match d.hub.resetAsk with
    | none => d
    | some (full, id, queued) =>
      if !d.resetDue now id queued || !d.ready then d
      else if full && d.ten.state == .open_ then
        let d := forEach d (List.range 16) fun d p => d.faultAllItems now p
        (d.startScrub now none).endTenantObjects now
      else if full && d.ten.state == .scrubbing && !d.hub.oos then d
      else if full then
        if d.hub.oos then
          (({ d with aon := { d.aon with devResets := [] }, hub := { d.hub with oos := false } } : Device).beginFull now).retest now
        else (d.countDevReset now fcDeviceResetCmd).beginFull now
      else (d.countDevReset now fcDeviceResetCmd).beginWarm now

end Sys2Proof.Machine
end

