-- ==== Sys2Proof/Machine/Faults.lean ====
section
/-! DEFINITION. The end of a compute reset with its substitutions, hub faults, the stewards and the lead lease, bridge lanes,
knot slots and SRAM rows (R46, R47, R395, R400, R403–R413). -/

namespace Sys2Proof.Machine

/-! ### Slots and rows in a compute reset (R46, R47, R404) -/

def sramNum : SramArray → Nat
  | .pool => 0 | .accumulator => 1 | .mere => 2 | .hub => 3

/-- Spare rows of a slot, a slice or the hub (R403). -/
def spareRows : SramArray → Nat
  | .pool => 32 | .accumulator => 16 | .mere => 128 | .hub => 16

def rowUnit (arr : SramArray) (unit : Nat) : Nat := 128 * sramNum arr + unit
def rowKey (arr : SramArray) (unit row : Nat) : Nat := rowUnit arr unit * 65536 + row

/-- Rows of a unit that wait for substitution. -/
def Hub.markedRows (x : Hub) (arr : SramArray) (unit : Nat) : List (Nat × Nat) :=
  (x.rowMarked.filter fun e => e.1 / 65536 == rowUnit arr unit).map fun e => (e.1 % 65536, e.2)

def Hub.sparesLeft (x : Hub) (arr : SramArray) (unit : Nat) : Nat := spareRows arr - x.rowSpares.get 0 (rowUnit arr unit)

/-- A slot whose spare rows are exhausted counts as failed. -/
def Hub.rowsExhausted (x : Hub) (unit : Nat) : Bool :=
  [SramArray.pool, .accumulator].any fun a => x.sparesLeft a unit == 0 || decide (x.sparesLeft a unit < (x.markedRows a unit).length)

/-- The pool of a slot holds a line that cannot be corrected. -/
def Hub.poolLost (x : Hub) (unit : Nat) : Bool := (x.markedRows .pool unit).any (·.2 == 2)

/-- The logical core of a bundle that a physical slot serves. -/
def Fabric.coreAt (x : Fabric) (b slot : Nat) : Option Nat := (List.range 4).find? fun c => x.slotOf b c == slot

/-- A degraded bundle takes its partition out of service (R47). -/
def Device.degradeBundle (d : Device) (now p b : Nat) : Device :=
  let d := { d with fab := { d.fab with degraded := d.fab.degraded.set false b true } }
  (d.modPart p fun q => { q with oos := q.defined }).faultAllItems now p

/-- The spare slot serves logical core `c` of bundle `b`. An abandoned copy leaves zeros and the core's bound section, and
every unanswered item FAULTED (R46). -/
def Device.substitute (d : Device) (now p b c : Nat) (poolBad : Bool) : Device :=
  let d := { d with fab := { d.fab with
    slots := d.fab.slots.set none (4 * b + c) (some 4), spareUsed := d.fab.spareUsed.set false b true } }
  if !poolBad then d
  else
    let d := d.modCore (4 * b + c) fun k => { k with pool := [] }
    let secs := ((d.boundWeave p).map (·.sections)).getD []
    let d := forEach d (secs.filter fun x => x.core == 4 * b + c) fun d x => d.modCore x.core fun k => k.place x
    d.faultAllItems now p

/-- A slot found failed: SLOT_FAILED joins the reset; a slot that serves a core is substituted, or its bundle degrades.
`spareBad`: the bundle's spare fails the same test. -/
def Device.failSlot (d : Device) (now p b slot step : Nat) (poolBad spareBad : Bool) : Device :=
  let core := (d.fab.coreAt b slot).map fun c => 4 * b + c
  let used := d.fab.spareUsed.get false b
  if core.isNone && (used || slot ≠ 4) then d
  else
    let d := d.partFault now p fcSlotFailed core 0 (5 * b + slot) step false false
    match core with
    | none => d
    | some n => if used || spareBad then d.degradeBundle now p b else d.substitute now p b (n % 4) poolBad

/-- The slots that the slot test finds failed. -/
def Device.failSlots (d : Device) (now p : Nat) (failed : List SlotFail) : Device :=
  let bs := bundlesOf (d.part p).bundles
  let mine := failed.filter fun f => bs.contains f.bundle.toNat
  let spareBad (b : Nat) : Bool := mine.any (fun f => f.bundle.toNat == b && f.slot.val == 4) || d.hub.rowsExhausted (5 * b + 4)
  let named (b slot : Nat) : Bool := mine.any fun f => f.bundle.toNat == b && f.slot.val == slot
  let worn := bs.flatMap fun b => ((List.range 5).filter fun s => !named b s && d.hub.rowsExhausted (5 * b + s)).map (b, ·)
  let d := forEach d mine fun d f =>
    let b := f.bundle.toNat
    d.failSlot now p b f.slot.val f.step (f.poolBad || d.hub.poolLost (5 * b + f.slot.val)) (spareBad b)
  forEach d worn fun d w =>
    d.tookFree.failSlot now p w.1 w.2 d.freeWord.toNat (d.hub.poolLost (5 * w.1 + w.2)) (spareBad w.1)

/-- A row's contents are lost: free values stand in it. -/
def Device.loseRow (d : Device) (n row : Nat) : Device :=
  let ws := (rangeFrom d.freeCount 128).map Config.freeWord
  ({ d with freeCount := d.freeCount + 128 } : Device).modCore n fun k =>
    { k with pool := k.pool.setList 0 (1024 * row) (wordsBytes ws) }

/-- A marked row is substituted while its unit has a spare; a lost pool row answers every item FAULTED (R404). -/
def Device.mendRow (d : Device) (now p n : Nat) (arr : SramArray) (unit : Nat) (row : Nat × Nat) : Device :=
  if d.hub.sparesLeft arr unit = 0 then d
  else
    let d := { d with hub := { d.hub with
      rowMarked := d.hub.rowMarked.set 0 (rowKey arr unit row.1) 0
      rowSpares := d.hub.rowSpares.modify 0 (rowUnit arr unit) (· + 1) } }
    if arr = .pool ∧ row.2 = 2 then (d.loseRow n row.1).faultAllItems now p else d

/-- Rows of the slots that serve a partition's cores. -/
def Device.mendRows (d : Device) (now p : Nat) : Device :=
  forEach d (d.part p).cores fun d n =>
    let unit := 5 * (n / 4) + d.fab.slotOf (n / 4) (n % 4)
    forEach d [SramArray.pool, .accumulator] fun d a => forEach d (d.hub.markedRows a unit) fun d r => d.mendRow now p n a unit r

/-- Failed knot slots that the partition owns, or that no partition owns any more, are replaced. -/
def Device.mendKnots (d : Device) (p : Nat) : Device :=
  let is := (d.fab.gknots.filter fun e => e.2.failed && (e.2.owner == some p || e.2.owner.isNone)).map (·.1)
  { d with fab := is.foldl (fun x i => x.replaceKnot i) d.fab }

/-- A count in a field of 8 bits: one above 255 is stated nowhere, and leaves a free value (log entry 102). -/
def Device.field8 (d : Device) (n : Nat) : Word := if 255 < n then d.freeWord &&& 0xFF else BitVec.ofNat 64 n

/-- COMPUTE_RESET_COMPLETE: slot test and substitutions, unless the reset is charged to a steward's loss; cores, knots and
streams as R51, R70 and R131 have them; PARTITION_RESET answered. Items wait for their dispatch (R30). -/
def execComputeResetComplete (p : PartId) (failed : List SlotFail) (s : State) : Host.Outcome State Fault Refusal :=
  s.act fun now d =>
    let n := p.toNat
    match (d.part n).reset with
    | none => d
    | some r =>
      if now < r.t0 + resetNs r.noSlotTest then d
      else
        let d := if r.noSlotTest then d else ((d.failSlots now n failed).mendRows now n).mendKnots n
        let d := forEach d (d.part n).cores fun d c => d.modCore c Core.afterReset
        let d := (d.advanceKnots n).resetStreams n
        let d := if 255 < r.exposed then d.tookFree else d
        let d := forEach d r.waits fun e id => e.answer now id stOk [d.field8 r.exposed]
        d.modPart n fun q =>
          if q.defined then { q with reset := none } else { q with reset := none, bundles := 0 }

/-! ### HUB_FAULT (R400) -/

/-- The hub runs: neither gated nor in another reset. -/
def Device.hubRuns (d : Device) : Bool :=
  d.ready && !d.therm.tripped && d.pwr.pfail.isNone && d.hub.resetting.isNone
    && (d.pwr.state == .run || d.pwr.state == .hush || d.pwr.state == .listen)

/-- HUB_FAULT: an automatic warm reset. -/
def Device.hubFault (d : Device) (now unit cause : Nat) : Device := (d.deviceFault now fcHubFault unit cause).autoWarmReset now

/-- HUB_FAULT whose unit and cause the spec does not number. -/
def Device.hubFaultFree (d : Device) (now : Nat) : Device :=
  let unit := d.freeWord.toNat
  let d := d.tookFree
  d.tookFree.hubFault now unit d.freeWord.toNat

def execHubFault (unit cause : BitVec 32) (s : State) : Host.Outcome State Fault Refusal :=
  s.act fun now d => if d.hubRuns then d.hubFault now unit.toNat cause.toNat else d

/-! ### The stewards (R409, R413) -/

def Device.steward (d : Device) (h : Nat) : Stew := d.hub.stewards.get Stew.init h
def Device.modSteward (d : Device) (h : Nat) (f : Stew → Stew) : Device :=
  { d with hub := { d.hub with stewards := d.hub.stewards.modify Stew.init h f } }

/-- The steward of a half is powered (R370): both from the start on and in RUN and HUSH, the lead one in LISTEN; none while
the device is out of service. -/
def Device.stewardOn (d : Device) (h : Nat) : Bool :=
  !d.hub.oos && !d.therm.tripped
    && (d.aon.boot == .hubUp || d.aon.boot == .trained
      || d.ready && (d.pwr.state == .run || d.pwr.state == .hush || (d.pwr.state == .listen && b2n d.hub.leaseHalf == h)))

/-- The 250 µs of R411 and R413, in ns. -/
def renewLimit : Nat := 250000

/-- HEARTBEAT. -/
def execHeartbeat (half : Half) (s : State) : Host.Outcome State Fault Refusal :=
  s.act fun now d =>
    let h := b2n half
    if d.stewardOn h && !(d.steward h).lost then d.modSteward h fun x => { x with beat := now } else d

/-- The last time from which a steward's heartbeat is awaited. -/
def Device.beatFrom (d : Device) (h : Nat) : Nat :=
  max (max (d.steward h).beat d.hub.hubResetAt) (if d.ready then d.pwr.since else 0)

/-- A defined partition's lowest bundle lies in half `h`. -/
def Part.lowestIn (q : Part) (h : Nat) : Bool :=
  q.defined && (match bundlesOf q.bundles with | [] => false | b :: _ => b / 8 == h)

/-- STEWARD_LOST, with cause 0 heartbeat, 1 uncorrectable error or 2 start-up test. -/
def execStewardLost (half : Half) (cause : BitVec 2) (s : State) : Host.Outcome State Fault Refusal :=
  s.act fun now d =>
    let h := b2n half
    if !d.stewardOn h || (d.steward h).lost || cause == 3 || (cause == 0 && decide (now < d.beatFrom h + renewLimit)) then d
    else
      let d := d.deviceFault now fcStewardLost h cause.toNat
      if (d.steward (1 - h)).lost then
        if cause = 2 then (d.modSteward h fun x => { x with lost := true }).deviceOut now fcNoSteward
        else if d.hubRuns then d.hubFaultFree now
        else d.modSteward h fun x => { x with lost := true }
      else
        let d := d.modSteward h fun x => { x with lost := true, restartAt := some now }
        forEach d ((List.range 16).filter fun p => (d.part p).lowestIn h) fun d p =>
          d.partFault now p fcStewardLost none 0 h cause.toNat true false

/-- STEWARD_RESTART_TEST: a steward that passes runs again, as dispatcher unless it holds the lease; one that fails stays
out. With neither running the device goes out of service (R401). -/
def execStewardRestartTest (half : Half) (pass : Bool) (s : State) : Host.Outcome State Fault Refusal :=
  s.act fun now d =>
    let h := b2n half
    let x := d.steward h
    if !x.lost || x.restartAt.isNone then d
    else if pass then
      d.modSteward h fun x => { x with
        lost := false, restartAt := none, beat := now, epoch := d.hub.leaseEpoch
        demoted := d.hub.leaseEpoch ≠ 0 && b2n d.hub.leaseHalf ≠ h }
    else
      let d := d.modSteward h fun x => { x with restartAt := none }
      if (d.steward (1 - h)).lost then d.deviceOut now fcNoSteward else d

/-! ### The lead lease (R410–R412) -/

/-- LEASE_RENEW: the holder's renewal, before the lease expires. -/
def execLeaseRenew (half : Half) (s : State) : Host.Outcome State Fault Refusal :=
  s.act fun now d =>
    if d.hub.leaseHeld && d.hub.leaseHalf == half && d.stewardOn (b2n half) && !(d.steward (b2n half)).lost
        && decide (now < d.hub.leaseAt + renewLimit) then
      { d with hub := { d.hub with leaseAt := now } }
    else d

/-- LEASE_EXPIRE: 250 µs after the last renewal. -/
def execLeaseExpire (s : State) : Host.Outcome State Fault Refusal :=
  s.act fun now d =>
    if d.hub.leaseHeld && decide (d.hub.leaseAt + renewLimit ≤ now) then { d with hub := { d.hub with leaseHeld := false } } else d

/-- The lease may be acquired by the steward of `half`. -/
def Device.mayAcquire (d : Device) (now : Nat) (half : Half) : Bool :=
  d.stewardOn (b2n half) && !(d.steward (b2n half)).lost && !d.hub.leaseHeld
    && (!half || d.hub.leaseEpoch ≠ 0 || decide (d.hub.hubResetAt + 10000000 ≤ now))

/-- Fabric units that hold an epoch, numbered in the order of R412, one dispatch logic to each half. -/
def fabricUnitNum : FabricUnit → Nat
  | .dispatch0 => 0 | .dispatch1 => 1 | .partitionControl => 2 | .streamCommit => 3 | .sequenceCommit => 4 | .replyQueue => 5
  | .admission => 6

/-- LEASE_ACQUIRE: every fabric unit holds the new epoch; the new lead takes the packet in interpretation with a fresh t_admit
(R413). -/
def execLeaseAcquire (half : Half) (s : State) : Host.Outcome State Fault Refusal :=
  s.act fun now d =>
    if !d.mayAcquire now half then d
    else
      let e := d.hub.leaseEpoch + 1
      let taken := d.hub.leaseHalf != half
      let d := { d with
        hub := { d.hub with
          leaseHalf := half, leaseHeld := true, leaseEpoch := e, leaseAt := now
          units := (List.range 7).map fun u => (u, e) }
        port := { d.port with interp := d.port.interp.map fun (p : Packet) => if taken then { p with tAdmit := now } else p } }
      let d := d.modSteward (b2n half) fun x => { x with epoch := e, demoted := false }
      (d.raise now 3 0x0020 (BitVec.ofNat 64 (b2n half)) (BitVec.ofNat 64 e)).setCause causeState

/-- STEWARD_CONTROL_WRITE: a write of an epoch below the unit's is rejected, and the steward demotes itself; another is
carried out by the command whose effect it is. -/
def execStewardControlWrite (half : Half) (unit : FabricUnit) (epoch : BitVec 48) (s : State) :
    Host.Outcome State Fault Refusal :=
  s.act fun now d =>
    let h := b2n half
    if !d.stewardOn h || (d.steward h).lost || d.hub.units.get 0 (fabricUnitNum unit) ≤ epoch.toNat then d
    else
      (d.modSteward h fun x => { x with demoted := true, epoch := d.hub.leaseEpoch }).logFault now fcLeaseStale none none h
        epoch.toNat

/-! ### Bridge lanes (R406, R407) -/

/-- Spare lanes of a bridge side. -/
def spareLanes : Nat := 2
def laneKey (side lane : Nat) : Nat := 256 * side + lane

/-- A bridge lane fails: a spare trains in its place while the side stops, and every partition that uses the bridge is reset;
with no spare left the device goes out of service. -/
def Device.laneFailed (d : Device) (now side lane : Nat) : Device :=
  let d := { d with hub := { d.hub with laneFails := d.hub.laneFails.set [] (laneKey side lane) [] } }
  let d := d.deviceFault now fcBridgeLane side lane
  let used := d.hub.laneUsed.get 0 side
  if spareLanes ≤ used then
    ({ d with hub := { d.hub with laneLost := d.hub.laneLost.set false side true } } : Device).deviceOut now fcBridgeLane
  else
    let d := { d with hub := { d.hub with
      laneUsed := d.hub.laneUsed.set 0 side (used + 1), laneStopped := d.hub.laneStopped.set false side true } }
    forEach d ((List.range 16).filter fun p => (d.part p).defined && (d.partDomains p).contains 34) fun d p =>
      d.partFault now p fcBridgeLane none 0 side lane false false

/-- BRIDGE_PACKET_FAIL: the sixteenth failure of a lane within 1 ms, or a failed retry, fails the lane. -/
def execBridgePacketFail (side : Half) (lane : BitVec 8) (retryFailed : Bool) (s : State) : Host.Outcome State Fault Refusal :=
  s.act fun now d =>
    let h := b2n side
    let key := laneKey h lane.toNat
    if !d.hubRuns || d.hub.laneStopped.get false h then d
    else
      let ts := (d.hub.laneFails.get [] key).filter (fun t => decide (now ≤ t + 1000000)) ++ [now]
      let d := { d with hub := { d.hub with laneFails := d.hub.laneFails.set [] key ts } }
      if retryFailed || decide (16 ≤ ts.length) then d.laneFailed now h lane.toNat else d

/-- SPARE_LANE_TRAINED: the side resumes. -/
def execSpareLaneTrained (side : Half) (s : State) : Host.Outcome State Fault Refusal :=
  s.act fun _ d => { d with hub := { d.hub with laneStopped := d.hub.laneStopped.set false (b2n side) false } }

/-! ### Knot slots (R405) -/

/-- KNOT_SLOT_PARITY: an owned knot's slot is replaced within a reset of its owner, an unowned one at once. DETAIL_B is the
spare slot taken, and free where none is left. -/
def execKnotSlotParity (index : BitVec 12) (s : State) : Host.Outcome State Fault Refusal :=
  s.act fun now d =>
    let i := index.toNat
    let k := d.gknot i
    if !d.hubRuns || k.withdrawn || k.failed then d
    else
      let next := d.fab.knotSpares + (d.fab.gknots.filter (·.2.failed)).length
      let spare := if next < knotSpareSlots then next else d.freeWord.toNat
      let d := if next < knotSpareSlots then d else d.tookFree
      match k.owner with
      | some p => (d.setGknot i { k with failed := true }).partFault now p fcKnotSlot none 0 i spare false false
      | none =>
        let d := d.logFault now fcKnotSlot none none i spare
        { d with fab := d.fab.replaceKnot i }

/-! ### SRAM rows (R404) -/

/-- Lines of a mere are gone: a page held whole keeps its others. -/
def Mem.dropLines (m : Mem) (half : Bool) (gone : List Nat) : Mem :=
  let split := ((gone.map (· / 512)).eraseDups).filter fun pg => m.full.get false pg
  { m with
    full := setAll false m.full split false
    cached := m.cached.filter (fun e => !(e.1 == half && gone.contains e.2))
      ++ split.flatMap fun pg => ((rangeFrom (pg * 512) 512).filter fun l => !gone.contains l).map fun l => (half, l) }

/-- A mere row is substituted line by line, each under a grant of the slice's steward port: clean lines are dropped, dirty ones moved, and
one that cannot be corrected poisons its page. -/
def Device.mendMereRow (d : Device) (now unit row : Nat) (held : List Nat) (bad : List (Nat × BitVec 22)) : Device :=
  let half := decide (4 ≤ unit)
  let clean := held.filter fun l => !d.mem.dirty.get false l
  let lost := bad.filter fun e => held.contains e.1 && d.mem.dirty.get false e.1
  let gone := clean ++ lost.map (·.1)
  let spare := decide (0 < d.hub.sparesLeft .mere unit)
  let d := { d with
    mem := { d.mem.dropLines half gone with dirty := setAll false d.mem.dirty (lost.map fun (e : Nat × BitVec 22) => e.1) false }
    hub := { d.hub with
      rowSpares := if spare then d.hub.rowSpares.modify 0 (rowUnit .mere unit) (· + 1) else d.hub.rowSpares
      rowErrs := d.hub.rowErrs.set [] (rowKey .mere unit row) [] } }
  let d := if held.isEmpty then d else d.request now [hop .mereSlice unit 10 held.length] (stewardLst now) ⟨none, none, .steward⟩
  forEach d lost fun d e => d.poisonPhys now (b2n half) e.2.toNat (.alloc (BitVec.ofNat 22 (e.1 / 512)))

/-- A row is found failed. -/
def Device.rowFound (d : Device) (now : Nat) (arr : SramArray) (unit row : Nat) (uncorrectable : Bool) (held : List Nat)
    (bad : List (Nat × BitVec 22)) : Device :=
  let d := d.logFault now fcSramRow none none (sramNum arr) row
  let d := { d with hub := { d.hub with rowErrs := d.hub.rowErrs.set [] (rowKey arr unit row) [] } }
  match arr with
  | .pool | .accumulator =>
    { d with hub := { d.hub with rowMarked := d.hub.rowMarked.set 0 (rowKey arr unit row) (if uncorrectable then 2 else 1) } }
  | .mere => d.mendMereRow now unit row held bad
  | .hub =>
    let spare := decide (0 < d.hub.sparesLeft .hub 0)
    let d := if spare then { d with hub := { d.hub with rowSpares := d.hub.rowSpares.modify 0 (rowUnit .hub 0) (· + 1) } } else d
    if uncorrectable && decide (unit < 3) then d.hubFaultFree now else d

/-- SRAM_ROW_ERROR: an uncorrectable error, or the third corrected one within 24 h, finds the row failed; a row that waits for
substitution is found once. A row that no array has fails in no way (log entry 92). -/
def execSramRowError (arr : SramArray) (unit row : Nat) (uncorrectable : Bool) (held : List Nat) (bad : List (Nat × BitVec 22))
    (s : State) : Host.Outcome State Fault Refusal :=
  s.act fun now d =>
    let key := rowKey arr unit row
    let mark := d.hub.rowMarked.get 0 key
    if !d.hubRuns || !sramRowWf arr unit row then d
    else if mark ≠ 0 then
      if uncorrectable then { d with hub := { d.hub with rowMarked := d.hub.rowMarked.set 0 key 2 } } else d
    else
      let ts := (d.hub.rowErrs.get [] key).filter (fun t => decide (now ≤ t + 86400000000000)) ++ [now]
      if uncorrectable || decide (3 ≤ ts.length) then d.rowFound now arr unit row uncorrectable held bad
      else { d with hub := { d.hub with rowErrs := d.hub.rowErrs.set [] key ts } }

end Sys2Proof.Machine
end

