-- ==== Sys2Proof/Machine/I3c.lean ====
section
/-! DEFINITION. The I3C buses: hot-join, dynamic address assignment and the back-off of a bus that is alone (R444–R447). -/

namespace Sys2Proof.Machine

def Device.bus (d : Device) (b : Nat) : I3c := d.i3c.get I3c.init b
def Device.setBus (d : Device) (b : Nat) (x : I3c) : Device := { d with i3c := d.i3c.set I3c.init b x }

/-- The buses run in RUN, HUSH and LISTEN, and from the hub's release on (R444). -/
def Device.busOn (d : Device) : Bool :=
  !d.therm.tripped && (d.aon.boot == .hubUp || d.aon.boot == .trained
    || d.ready && (d.pwr.state == .run || d.pwr.state == .hush || d.pwr.state == .listen))

/-- Addresses of the pool: 0x08 to 0x3D. -/
def busPool : List Nat := rangeFrom 0x08 54

/-- The address that a target is given: its own, or the lowest that is free. -/
def I3c.addressOf (x : I3c) (id : Nat) : Option Nat :=
  match busPool.find? fun a => x.table.get none a == some id with
  | some a => some a
  | none => busPool.find? fun a => (x.table.get none a).isNone

/-- A target wins the arbitration: it is assigned and HOT_JOIN raised; one beyond the pool gets no address (R445). -/
def Device.assign (d : Device) (now b id : Nat) : Device :=
  let x := d.bus b
  match x.addressOf id with
  | none => d
  | some a =>
    (d.setBus b { x with table := x.table.set none a (some id) }).raise now 6 0x0050 (mkWord [(b, 0), (a, 8)])
      (BitVec.ofNat 64 id)

/-- The targets of an ENTDAA in the order in which they win; it ends at the first that gets no address. -/
def Device.assignAll_ (d : Device) (now b : Nat) : List Nat → Device
  | [] => d
  | id :: r => if ((d.bus b).addressOf id).isNone then d else (d.assign now b id).assignAll_ now b r

/-- The longest wait between attempts, and the least time between two BUS_ALONE events. -/
def backoffMax : Nat := 1024
def aloneGap : Nat := 60000000000

/-- An attempt that 0x7E left unacknowledged on a bus with no assignment (R447). -/
def Device.attemptFailed (d : Device) (now b : Nat) : Device :=
  let x := d.bus b
  let tell := !x.alone || match x.lastAlone with | none => true | some t => decide (t + aloneGap ≤ now)
  let d := d.setBus b { x with
    alone := true, nextTry := some (now + x.backoff * 1000000), backoff := min (2 * x.backoff) backoffMax
    lastAlone := if tell then some now else x.lastAlone, started := true, scheduled := none }
  if tell then d.raise now 6 0x0051 (BitVec.ofNat 64 b) (mkWord [(x.backoff, 0)]) else d

/-- An attempt: with no target and no assignment the bus is alone; targets are assigned. -/
def Device.attempt (d : Device) (now b : Nat) (targets : List (BitVec 48)) : Device :=
  let x := d.bus b
  if targets.isEmpty && x.table.isEmpty then d.attemptFailed now b
  else
    (d.setBus b { x with alone := false, backoff := 1, nextTry := none, started := true, scheduled := none }).assignAll_ now b
      (targets.map (·.toNat))

/-- HOT_JOIN_REQUEST: acknowledged; ENTDAA follows within 1 ms, and the back-off is over (R446). -/
def execHotJoinRequest (bus : Half) (s : State) : Host.Outcome State Fault Refusal :=
  s.act fun now d =>
    let b := b2n bus
    let x := d.bus b
    if !d.busOn || !x.started then d
    else d.setBus b { x with nextTry := none, backoff := 1, scheduled := some (x.scheduled.getD (now + 1000000)) }

/-- ENTDAA: the scheduled assignment. -/
def execEntdaa (bus : Half) (targets : List (BitVec 48)) (s : State) : Host.Outcome State Fault Refusal :=
  s.act fun now d =>
    if !d.busOn || (d.bus (b2n bus)).scheduled.isNone then d else d.attempt now (b2n bus) targets

/-- I3C_RETRY: the first attempt, or the next one of a bus that is alone, when its wait has passed. -/
def execI3cRetry (bus : Half) (targets : List (BitVec 48)) (s : State) : Host.Outcome State Fault Refusal :=
  s.act fun now d =>
    match (d.bus (b2n bus)).nextTry with
    | none => d
    | some t => if !d.busOn || decide (now < t) then d else d.attempt now (b2n bus) targets

end Sys2Proof.Machine
end

