-- ==== Sys2Proof/Machine/Tile.lean ====
section
/-! DEFINITION. The tile descriptor and the window geometry: their fields and the checks made at issue (R60, R63, R105,
R110, R122). -/

namespace Sys2Proof.Machine

/-- The fields of a tile descriptor (R60). -/
structure Tile where
  (op wfmt afmt narrow ofmt scale rescale satsel : Nat)
  (accState resetMask outAcc accumulate statsEn : Bool)
  statsAxis : Nat
  doneEn : Bool
  (doneKnot kBlk nBlk statsBase m l actBase outBase rsv1 wgtBase scaleBase stateRow rsv2 maskBase : Nat)
  (actStride outStride wgtStride scaleStride : Int)
  deriving DecidableEq, Repr

/-- Field `[hi:lo]` of word `w` of a 256-bit descriptor. -/
def dfld (lo hi : BitVec 128) (w h l : Nat) : Nat :=
  bitsOf (if w < 2 then lo else hi).toNat (64 * (w % 2) + h) (64 * (w % 2) + l)
def dbit (lo hi : BitVec 128) (w i : Nat) : Bool := dfld lo hi w i i == 1

/-- A tile descriptor read from its register pair. -/
def readTile (lo hi : BitVec 128) : Tile :=
  let f := dfld lo hi
  let b := dbit lo hi
  { op := f 0 1 0, wfmt := f 0 5 2, afmt := f 0 7 6, narrow := f 0 9 8, ofmt := f 0 12 10, scale := f 0 14 13,
    rescale := f 0 16 15, satsel := f 0 20 17, accState := b 0 21, resetMask := b 0 22, outAcc := b 0 23,
    accumulate := b 0 24, statsEn := b 0 25, statsAxis := f 0 26 26, doneEn := b 0 27, doneKnot := f 0 33 28,
    kBlk := f 0 43 34, nBlk := f 0 53 44, statsBase := f 0 63 54,
    m := f 1 11 0 + 1, l := f 1 27 12, actBase := f 1 43 28, outBase := f 1 59 44, rsv1 := f 1 63 60,
    wgtBase := f 2 15 0, scaleBase := f 2 31 16, stateRow := f 2 43 32, rsv2 := f 2 47 44, maskBase := f 2 63 48,
    actStride := signedOf 16 (f 3 15 0), outStride := signedOf 16 (f 3 31 16),
    wgtStride := signedOf 16 (f 3 47 32), scaleStride := signedOf 16 (f 3 63 48) }

/-- The fields of the window geometry (R105). -/
structure Geo where
  (kh kw sy sx dy dx : Nat)
  (offY offX : Int)
  (inH inW outW oy0 ox0 inPitch pixPitch : Nat)
  (walk poolMax seed : Bool)
  (seedRow rsv : Nat)
  deriving DecidableEq, Repr

/-- The geometry read from d[DPAIR + 2]. -/
def readGeo (x : BitVec 128) : Geo :=
  let f := fun h l => bitsOf x.toNat h l
  { kh := f 2 0, kw := f 5 3, sy := f 7 6 + 1, sx := f 9 8 + 1, dy := f 12 10 + 1, dx := f 15 13 + 1,
    offY := signedOf 8 (f 23 16), offX := signedOf 8 (f 31 24), inH := f 43 32, inW := f 55 44, outW := f 67 56 + 1,
    oy0 := f 79 68, ox0 := f 91 80, inPitch := f 107 92, pixPitch := f 115 108, walk := f 116 116 == 1,
    poolMax := f 117 117 == 1, seed := f 118 118 == 1, seedRow := 4 * f 126 119, rsv := f 127 127 }

/-- OP conv or depthwise. -/
def Tile.windowed (t : Tile) : Bool := t.op == 1 || t.op == 2
def Tile.four (t : Tile) : Bool := t.wfmt == 1 || t.wfmt == 4
def Tile.k (t : Tile) : Nat := 64 * t.kBlk
def Tile.n (t : Tile) : Nat := (if t.four then 128 else 64) * t.nBlk
/-- The bf16 path (R90). -/
def Tile.bf (t : Tile) : Bool := t.narrow == 3
/-- Bytes of a tile (R83). -/
def Tile.tileBytes (t : Tile) : Nat := if t.wfmt == 5 then 8192 else 4096
/-- Bytes of a depthwise vector (R109). -/
def Tile.vecBytes (t : Tile) : Nat := if t.wfmt == 5 then 128 else 64
/-- The column multiplier enters the rescale (R93). -/
def Tile.colEnters (t : Tile) : Bool := (t.rescale == 0 || t.rescale == 1) && !t.outAcc
/-- The row multiplier enters the rescale, and a row scale or map scale is used (R85, R93, R108). -/
def Tile.rowScaled (t : Tile) : Bool := t.rescale == 0 || t.rescale == 2
/-- The scale tensor is read (R93). -/
def Tile.scaleRead (t : Tile) : Bool := t.colEnters || t.wfmt == 4
/-- Size of the scale tensor (R92). -/
def Tile.scaleBytes (t : Tile) : Nat :=
  if t.scale == 0 then 4 * t.n else if t.scale == 1 then 4 * t.n + t.n * t.k / 32 else 0
def Tile.maskBytes (t : Tile) : Nat := cdiv t.m 512 * 64
/-- Bytes of a statistics record (R99). -/
def Tile.statBytes (t : Tile) : Nat := roundUp (4 * (if t.statsAxis == 0 then t.m else t.n)) 64
def Tile.actAt (t : Tile) (i : Nat) : Int := t.actBase * 64 + i * t.actStride * 64
def Tile.wgtAt (t : Tile) (i : Nat) : Int := t.wgtBase * 64 + i * t.wgtStride * 64
def Tile.scaleAt (t : Tile) (i : Nat) : Int := t.scaleBase * 64 + i * t.scaleStride * 64
def Tile.outAt (t : Tile) (i : Nat) : Int := t.outBase * 64 + i * t.outStride * 64
/-- Where the decay table or map scale of an iteration lies (R108, R121). -/
def Tile.tailAt (t : Tile) (i : Nat) : Int := t.scaleAt i + roundUp t.scaleBytes 64
/-- Number of taps: one for matmul and recur-step. -/
def Tile.taps (t : Tile) (g : Geo) : Nat := if t.windowed then g.kh * g.kw else 1

/-! ### Checks at issue -/

/-- `[a, a + n)` lies in the pool, or is empty. -/
def inPool (a : Int) (n : Nat) : Bool := n == 0 || (decide (0 ≤ a) && decide (a + n ≤ poolBytes))

/-- The range lies in the pool at the first and the last iteration, so at every one: addresses are linear in it. -/
def inPoolAll (l : Nat) (a : Nat → Int) (n : Nat) : Bool := inPool (a 0) n && inPool (a (l - 1)) n

def Geo.outH (g : Geo) (t : Tile) : Nat := t.m / g.outW
/-- Map row of tap row `r` for output row `oy`; map column of tap column `s` for output column `ox` (R106). -/
def Geo.mapY (g : Geo) (oy r : Nat) : Int := oy * g.sy + r * g.dy + g.offY
def Geo.mapX (g : Geo) (ox s : Nat) : Int := ox * g.sx + s * g.dx + g.offX
def inside (v : Int) (n : Nat) : Bool := decide (0 ≤ v) && decide (v < n)

/-- The map rows inside the map that the iterations read: all of them under WALK, else those of iteration 0. -/
def Geo.rowsRead (g : Geo) (t : Tile) : List Int :=
  let hs := (if g.walk then t.l else 1) * g.outH t
  ((List.range hs).flatMap fun q => (List.range g.kh).map fun r => g.mapY (g.oy0 + q) r).filter fun y => inside y g.inH
def Geo.colsRead (g : Geo) : List Int :=
  ((List.range g.outW).flatMap fun q => (List.range g.kw).map fun s => g.mapX (g.ox0 + q) s).filter fun x => inside x g.inW

/-- Byte offset of a map position from the iteration's activation base (R106). -/
def Geo.posOff (g : Geo) (y x : Int) : Int := y * g.inPitch * 64 + x * g.pixPitch * 64

/-- Iteration's activation base of a window: ACT_BASE under WALK. -/
def Geo.actAt (g : Geo) (t : Tile) (i : Nat) : Int := if g.walk then t.actBase * 64 else t.actAt i

/-- The activation bytes read lie in the pool. -/
def actOk (t : Tile) (g : Geo) : Bool :=
  if t.windowed then
    match g.rowsRead t, g.colsRead with
    | y :: ys, x :: xs =>
      let y0 := ys.foldl min y; let y1 := ys.foldl max y
      let x0 := xs.foldl min x; let x1 := xs.foldl max x
      let span := (g.posOff y1 x1 - g.posOff y0 x0).toNat + t.k * 2
      inPoolAll t.l (fun i => g.actAt t i + g.posOff y0 x0) span
    | _, _ => true
  else inPoolAll t.l t.actAt (t.m * t.k * 2)

/-- POOL_MAX computes a maximum pool: depthwise with the bit set (R112). -/
def isPoolMax (t : Tile) (g : Geo) : Bool := t.op == 2 && g.poolMax

/-- Every pool byte that an iteration reads or writes lies in the pool (R63, R93). -/
def poolOk (t : Tile) (g : Geo) : Bool :=
  let wn := if isPoolMax t g then 0
    else if t.op == 2 then t.taps g * t.kBlk * t.vecBytes else t.taps g * t.kBlk * t.nBlk * t.tileBytes
  let sn := if t.scaleRead && !isPoolMax t g then t.scaleBytes else 0
  let tail := if t.op == 3 then 4 * t.n
    else if t.windowed && t.rowScaled && !t.bf && !isPoolMax t g then 4 else 0
  actOk t g && inPoolAll t.l t.wgtAt wn && inPoolAll t.l t.scaleAt sn && inPoolAll t.l t.tailAt tail
    && (t.outAcc || inPoolAll t.l t.outAt (t.m * t.n * 2))
    && (!t.resetMask || inPool (t.maskBase * 64) ((if t.op == 3 then 2 else 1) * t.l * t.maskBytes))
    && (!t.statsEn || inPool (t.statsBase * 4096) (t.l * t.statBytes))

/-- Reserved fields and codes are zero. -/
def reservedOk (t : Tile) : Bool :=
  t.rsv1 == 0 && t.rsv2 == 0 && decide (t.afmt ≠ 3) && decide (t.wfmt ≤ 5) && decide (t.ofmt ≤ 3) && decide (t.scale ≠ 3)
    && (!t.outAcc || decide (t.outBase < 4096))

/-- The pairings of R63 and R122. -/
def pairOk (t : Tile) : Bool :=
  (t.ofmt == 3) == t.outAcc && (decide (t.rescale ≠ 3) || t.ofmt == 3) && (decide (t.scale ≠ 1) || t.wfmt == 4)
    && (t.narrow == 3) == (t.wfmt == 5)

/-- Accumulator rows used: output rows 0–1,023, state rows 1,024–4,095 (R63), and the flags' partners. -/
def rowsOk (t : Tile) : Bool :=
  let last : Int := t.outBase + (t.l - 1 : Nat) * t.outStride
  let span : Int := (t.n / 64) * t.m
  (!t.outAcc || (decide (0 ≤ last) && decide (last + span ≤ 1024) && decide ((t.outBase : Int) + span ≤ 1024)))
    && (!t.accState || (decide (1024 ≤ t.stateRow) && decide (t.stateRow + t.l * t.m ≤ 4096) && t.nBlk == 1
          && (t.op == 0 || t.op == 3) && !t.four))
    && (!t.accumulate || t.outAcc) && (!t.resetMask || t.accState) && (decide (t.op ≠ 3) || t.accState)

/-- The geometry of conv and depthwise (R110, R112). -/
def geoOk (t : Tile) (g : Geo) : Bool :=
  decide (g.kh ≠ 0) && decide (g.kw ≠ 0) && decide (g.inH ≠ 0) && decide (g.inW ≠ 0) && g.rsv == 0
    && t.m % g.outW == 0 && decide (t.k * 2 ≤ g.pixPitch * 64) && (!g.walk || decide (t.actStride = 0))
    && (decide (t.op ≠ 2) || (t.nBlk == t.kBlk && !t.four && decide (t.scale ≠ 1)))
    && (!g.poolMax || (t.op == 2 && t.wfmt == 0 && t.narrow == 0 && t.scale == 0 && t.rescale == 0 && !t.outAcc
          && !t.accState && !t.statsEn && t.ofmt == t.afmt))
    && (!g.seed || (!t.outAcc
          && decide (g.seedRow + (t.l - 1) * t.nBlk * t.m + (t.n / 64) * t.m ≤ 1024)))

/-- The descriptor breaks no rule of R63, R110 and R122. `dpair` is the even register. -/
def tileOk (t : Tile) (g : Geo) (dpair : Nat) : Bool :=
  reservedOk t && decide (t.l ≠ 0) && decide (t.kBlk ≠ 0) && decide (t.nBlk ≠ 0)
    && (isPoolMax t g || pairOk t) && rowsOk t
    && (!t.windowed || (decide (dpair ≤ 12) && geoOk t g)) && poolOk t g

end Sys2Proof.Machine
end

