-- ==== Sys2Proof/Machine/Array.lean ====
section
/-! DEFINITION. What the array computes in one iteration of an MXRUN (R61, R83–R99, R106–R112, R120, R121). Outputs are
computed and stored in the order of R61, so an operand that an earlier output overwrote is read as overwritten; the counts
of tile loads and scale entries are those of the tensors as the iteration found them (log entry 17). Counts are gathered
and added once (R97). -/

namespace Sys2Proof.Machine

/-! ### Operands -/

/-- A 16-bit stored activation as an exact value (R80, R85). -/
def actVal (afmt x : Nat) : FVal :=
  match afmt with
  | 0 => bf16.decode x
  | 1 => fp16.decode x
  | _ => let v := signedOf 16 x; .fin (decide (v < 0)) v.natAbs 0

/-- A subnormal activation of the bf16 path is zero (R90). -/
def actBf (afmt x : Nat) : FVal :=
  match afmt with
  | 0 => flushIn bf16 x
  | 1 => flushIn fp16 x
  | _ => actVal afmt x

def rdPool (k : Core) (a : Int) (n : Nat) : Nat := k.pool.rdLe a.toNat n

/-- The 16-bit codes of one block of 64 channels at a pool address. -/
def blockCodes (k : Core) (a : Int) : List Nat := (List.range 64).map fun (j : Nat) => rdPool k (a + 2 * j) 2

/-- The map position of row `m`, tap (r, s) in iteration `i`, if it lies inside the map (R106). -/
def tapPos (t : Tile) (g : Geo) (i m r s : Nat) : Option (Int × Int) :=
  let oy := g.oy0 + (if g.walk then i * g.outH t else 0) + m / g.outW
  let ox := g.ox0 + m % g.outW
  let y := g.mapY oy r
  let x := g.mapX ox s
  if inside y g.inH && inside x g.inW then some (y, x) else none

/-- Taps in raster order: (r, s). -/
def tapList (t : Tile) (g : Geo) : List (Nat × Nat) :=
  if t.windowed then (List.range g.kh).flatMap fun r => (List.range g.kw).map fun s => (r, s) else [(0, 0)]

/-- Where the pixel or row of tap (r, s) starts; none outside the map. -/
def tapAt (t : Tile) (g : Geo) (i m : Nat) (rs : Nat × Nat) : Option Int :=
  if t.windowed then (tapPos t g i m rs.1 rs.2).map fun p => g.actAt t i + g.posOff p.1 p.2
  else some (t.actAt i + m * t.k * 2)

/-- The codes of row `m`: one list of 64 for each (tap, channel block), taps in raster order, then blocks; positions
outside the map are +0. -/
def rowCodes (k : Core) (t : Tile) (g : Geo) (i m : Nat) : List (List Nat) :=
  (tapList t g).flatMap fun rs => (List.range t.kBlk).map fun (kb : Nat) =>
    match tapAt t g i m rs with
    | none => List.replicate 64 0
    | some a => blockCodes k (a + 128 * kb)

/-! ### Narrowing (R85–R87, R108) -/

/-- Q, the target format and the fraction bits of NARROW: int8, E4M3, E5M2. -/
def narrowQ (n : Nat) : Nat := match n with | 0 => 127 | 1 => 448 | _ => 57344
def narrowFmt (n : Nat) : Option Fmt := match n with | 0 => none | 1 => some e4m3 | _ => some e5m2
def narrowFrac (n : Nat) : Nat := match n with | 0 => 0 | 1 => 9 | _ => 16

/-- The greater magnitude of two finite values; values that are not finite do not count (R85). -/
def maxMag (a : Nat × Int) (x : FVal) : Nat × Int :=
  match x with
  | .fin _ m e => if (FVal.fin false a.1 a.2).lt (.fin false m e) then (m, e) else a
  | _ => a

/-- The largest finite magnitude of a row, as mantissa and exponent. -/
def rowMax (xs : List FVal) : Nat × Int := xs.foldl maxMag (0, 0)

/-- ⌈num × 2^e / den⌉. -/
def ceilScaled (num den : Nat) (e : Int) : Nat :=
  if 0 ≤ e then cdiv (num * 2 ^ e.toNat) den else cdiv num (den * 2 ^ (-e).toNat)

/-- `row_scale` of R85: mantissa, exponent, clamped. -/
def rowScale (a : Nat × Int) (q : Nat) : Nat × Int × Bool :=
  if a.1 = 0 then (0, 0, false)
  else
    let e := log2Rat a.1 q + a.2 + 127
    let m := ceilScaled a.1 q (a.2 + 142 - e)
    let (m, e) := if m = 0x10000 then (0x8000, e + 1) else (m, e)
    if e < 1 then (0x8000, 1, true) else (m, e, false)

/-- A finite code of the target as an integer in units of 2^−frac. -/
def narrowUnits (n code : Nat) : Nat :=
  match narrowFmt n with
  | none => code
  | some f => match f.decode code with
    | .fin _ m e => m * 2 ^ (e + narrowFrac n).toNat
    | _ => 0

/-- Q in the target's units. -/
def narrowTop (n : Nat) : Nat := narrowQ n * 2 ^ narrowFrac n

/-- A magnitude num/den × 2^e rounded once to the target and limited to Q: units and whether it was limited. -/
def narrowMag (n num den : Nat) (e : Int) : Nat × Bool :=
  match narrowFmt n with
  | none =>
    let r := if 0 ≤ e then rneDiv (num * 2 ^ e.toNat) den else rneDiv num (den * 2 ^ (-e).toNat)
    if 127 < r then (127, true) else (r, false)
  | some f =>
    let c := f.roundMag num den e
    if f.maxCode < c then (narrowTop n, true) else (narrowUnits n c, false)

/-- An element narrowed under the scale mant × 2^(exp − 142): its value in units and the clamps counted (R86, R87,
R108). `limit`: a limited element counts. -/
def narrowElem (n : Nat) (sc : Nat × Int) (limit : Bool) (x : FVal) : Int × Nat :=
  match x with
  | .nan => (0, 1)
  | .inf s => (sgn s (narrowTop n), 1)
  | .fin s m e =>
    if sc.1 = 0 then (0, 0)
    else
      let (u, lim) := narrowMag n m sc.1 (e - sc.2 + 142)
      (sgn s u, if limit && lim then 1 else 0)

/-- A row narrowed: units per block, the row multiplier (mantissa, exponent), the clamps counted. -/
structure Narrowed where
  blocks : List (List Int)
  mr : Nat
  er : Int
  clamps : Nat
  deriving DecidableEq, Repr

/-- The scale of 1. -/
def unitScale : Nat × Int := (0x8000, 127)

/-- The map scale of an iteration: entry and whether its reserved byte is non-zero (R108). -/
def mapScale (k : Core) (t : Tile) (i : Nat) : (Nat × Int) × Bool :=
  let x := rdPool k (t.tailAt i) 4
  ((bitsOf x 15 0, (bitsOf x 23 16 : Nat)), decide (bitsOf x 31 24 ≠ 0))

/-- The narrowing of one row (R85–R87; R108 for a window). -/
def narrowRow (k : Core) (t : Tile) (i : Nat) (codes : List (List Nat)) : Narrowed :=
  let vals := codes.map fun b => b.map (actVal t.afmt)
  let (sc, clamped, limit, zero) :=
    if !t.rowScaled then (unitScale, false, true, false)
    else if t.windowed then
      let s := (mapScale k t i).1
      (s, false, true, s.1 == 0)
    else
      let r := rowScale (rowMax vals.flatten) (narrowQ t.narrow)
      ((r.1, r.2.1), r.2.2, false, false)
  let el (x : FVal) : Int × Nat := if zero then (0, 0) else narrowElem t.narrow sc limit x
  let ns := vals.map fun b => b.map el
  let mult := if t.rowScaled then sc else unitScale
  { blocks := ns.map fun b => b.map (·.1), mr := mult.1, er := mult.2,
    clamps := (ns.map fun b => (b.map (·.2)).sum).sum + b2n clamped }

/-! ### Weights (R83, R84, R109) -/

/-- The code of weight (unit, column in the unit, k) of a tile (R83). -/
def tileCode (k : Core) (t : Tile) (w : Int) (unit col row : Nat) : Nat :=
  let a := w + unit * t.tileBytes
  if t.four then
    let b := rdPool k (a + 64 * row + col / 2) 1
    if col % 2 = 0 then b % 16 else b / 16
  else if t.wfmt == 5 then rdPool k (a + 128 * row + 2 * col) 2
  else rdPool k (a + 64 * row + col) 1

/-- Columns of an N block. -/
def Tile.colsPer (t : Tile) : Nat := if t.four then 128 else 64

/-- The code of the weight that output column `n` takes of element `j` of block `kb` at tap `tau`. -/
def weightCode (k : Core) (t : Tile) (w : Int) (tau kb n j : Nat) : Nat :=
  if t.op == 2 then
    let a := w + (tau * t.kBlk + kb) * t.vecBytes
    if t.wfmt == 5 then rdPool k (a + 2 * j) 2 else rdPool k (a + j) 1
  else tileCode k t w ((tau * t.nBlk + n / t.colsPer) * t.kBlk + kb) (n % t.colsPer) j

/-- Fraction bits of the units in which a weight format's values are integers. -/
def wgtFrac (wfmt : Nat) : Nat := match wfmt with | 2 => 9 | 3 => 16 | 4 => 1 | _ => 0

/-- A weight in units, and the clamp a code without a finite value counts (R84). -/
def weightUnits (wfmt code : Nat) : Int × Nat :=
  let fl (f : Fmt) (top : Nat) : Int × Nat :=
    match f.decode code with
    | .nan => (0, 1)
    | .inf s => (sgn s (top * 2 ^ wgtFrac wfmt), 1)
    | .fin s m e => (sgn s (m * 2 ^ (e + wgtFrac wfmt).toNat), 0)
  match wfmt with
  | 0 => (signedOf 8 code, 0)
  | 1 => (signedOf 4 code, 0)
  | 2 => fl e4m3 448
  | 3 => fl e5m2 57344
  | _ => fl e2m1 6

/-- The clamps of the tile loads of an iteration: each unit once (R84). -/
def weightClamps (k : Core) (t : Tile) (g : Geo) (w : Int) : Nat :=
  if t.wfmt ≠ 2 ∧ t.wfmt ≠ 3 then 0
  else
    let bytes := if t.op == 2 then t.taps g * t.kBlk * 64 else t.taps g * t.nBlk * t.kBlk * 4096
    ((List.range bytes).map fun (j : Nat) => (weightUnits t.wfmt (rdPool k (w + j) 1)).2).sum

/-! ### Scales (R89, R91–R93) -/

/-- U = U_A + U_W (R88). -/
def Tile.u (t : Tile) : Int :=
  (if t.narrow == 2 then 6 else 0) + (if t.wfmt == 3 then 6 else if t.wfmt == 4 then -4 else 0)

/-- The scale entry of column `n`. -/
def colEntry (k : Core) (t : Tile) (i n : Nat) : Nat := rdPool k (t.scaleAt i + 4 * n) 4
/-- The column multiplier (R91–R93). -/
def colMult (k : Core) (t : Tile) (i n : Nat) : Nat × Int :=
  if t.colEnters && t.scale ≠ 2 then
    let x := colEntry k t i n
    (bitsOf x 15 0, (bitsOf x 23 16 : Nat))
  else unitScale
/-- X_ref of a column (R89, R92). -/
def xref (k : Core) (t : Tile) (i n : Nat) : Nat := if t.scale == 2 then 127 else bitsOf (colEntry k t i n) 31 24
/-- X_b of block `b` of 32, column `n` (R92). -/
def xblk (k : Core) (t : Tile) (i n b : Nat) : Nat :=
  if t.scale == 1 then rdPool k (t.scaleAt i + 4 * t.n + b * t.n + n) 1 else xref k t i n

/-- The clamps of the scale tensor in one iteration: XREF set outside MXFP4, X_ref 0xFF, invalid block bytes. DESIGN CHOICE
(log entry 96): in a convolution a block byte counts once per column, not once for each tap that uses it. -/
def scaleClamps (k : Core) (t : Tile) (i : Nat) : Nat :=
  if !t.scaleRead || t.scale == 2 then 0
  else ((List.range t.n).map fun n =>
    let xr := bitsOf (colEntry k t i n) 31 24
    if t.wfmt ≠ 4 then b2n (decide (xr ≠ 0))
    else b2n (decide (xr = 0xFF)) + if t.scale == 1 then
      ((List.range (t.k / 32)).map fun b =>
        let x := xblk k t i n b; b2n (decide (x = 0xFF) || decide (xr < x))).sum
    else 0).sum

/-! ### Sums (R88–R90, R107) -/

def dot (xs ws : List Int) : Int := (List.zipWith (· * ·) xs ws).sum

/-- An exact block sum in units of 2^U (R88): `frac` fraction bits, and the extra power of two of an MXFP4 block. -/
def blockUnits (t : Tile) (s : Int) (extra : Int) : Int :=
  rneShift s (extra - (narrowFrac t.narrow + wgtFrac t.wfmt : Nat) - t.u)

/-- One (tap, channel block) of column `n`: its sum in accumulator units. -/
def blockSum (k : Core) (t : Tile) (i tau kb n : Nat) (xs : List Int) : Int :=
  let w := t.wgtAt i
  let wt (j : Nat) : Int := (weightUnits t.wfmt (weightCode k t w tau kb n j)).1
  if t.op == 2 then
    if n / 64 = kb then blockUnits t (xs.getD (n % 64) 0 * wt (n % 64)) 0 else 0
  else if t.wfmt == 4 then
    let xr := xref k t i n
    let part (h : Nat) : Int :=
      let xb := xblk k t i n (2 * kb + h)
      if xb = 0xFF ∨ xr < xb then 0
      else blockUnits t (dot ((xs.drop (32 * h)).take 32) ((List.range 32).map fun j => wt (32 * h + j))) ((xb : Int) - xr)
    part 0 + part 1
  else blockUnits t (dot xs ((List.range 64).map wt)) 0

/-- The int32 sum of output (row, n), and the saturation it counts (R88, R89). DESIGN CHOICE (log entry 95): under an X_ref
of 0xFF the sum is 0, and a seed or the accumulator's contents still add to it. -/
def sumInt (k : Core) (t : Tile) (i n : Nat) (blocks : List (List Int)) : Int × Nat :=
  if t.wfmt == 4 && xref k t i n == 0xFF then (0, 0)
  else
    let ids := (List.range blocks.length).zip blocks
    sat32 (ids.map fun b => blockSum k t i (b.1 / t.kBlk) (b.1 % t.kBlk) n b.2).sum

/-- The exact sum of a list of products, then one rounding to fp32 (R90). -/
def fsum : List FVal → FVal
  | [] => .fin false 0 0
  | x :: xs => fp32Flush (xs.foldl FVal.add x)

/-- The fp32 sum of output (row, n) on the bf16 path: block sums added in order to +0, each addition rounded (R90, R107).
DEDUCED (log entry 97): depthwise takes channel n alone, whatever the other channels hold. -/
def sumBf (k : Core) (t : Tile) (i n : Nat) (blocks : List (List FVal)) : FVal :=
  let w := t.wgtAt i
  let wt (tau kb j : Nat) : FVal := flushIn bf16 (weightCode k t w tau kb n j)
  let one (b : Nat × List FVal) : Option FVal :=
    let tau := b.1 / t.kBlk; let kb := b.1 % t.kBlk
    if t.op == 2 then
      if n / 64 = kb then some (fsum [(b.2.getD (n % 64) (.fin false 0 0)).mul (wt tau kb (n % 64))]) else none
    else some (fsum (List.zipWith (fun x j => x.mul (wt tau kb j)) b.2 (List.range 64)))
  (((List.range blocks.length).zip blocks).filterMap one).foldl (fun a y => fp32Flush (a.add y)) (.fin false 0 0)

/-! ### Accumulator arithmetic: int32 patterns, or fp32 patterns on the bf16 path -/

def accInt (x : W32) : Int := x.toInt
def accFlt (x : W32) : FVal := fp32.decode x.toNat
def fltAcc (v : FVal) : W32 := BitVec.ofNat 32 (fp32.encode v)
/-- State and OUT_ACC additions: modulo 2^32, or rounded in fp32 (R62, R90). -/
def accAdd (bf : Bool) (a b : W32) : W32 :=
  if bf then fltAcc (fp32Flush ((accFlt a).add (accFlt b))) else a + b

/-- Bit `m` of a mask of iteration `i` (R61); the hold planes follow the `l` reset masks (R121). -/
def maskBit (k : Core) (t : Tile) (i m : Nat) : Bool :=
  bitOf (rdPool k (t.maskBase * 64 + i * t.maskBytes + m / 8 : Nat) 1) (m % 8)

/-- The decay entry of column `n`: mantissa, exponent; a non-zero reserved byte takes mantissa 0 (R121). -/
def decayEntry (k : Core) (t : Tile) (i n : Nat) : Nat × Int :=
  let x := rdPool k (t.tailAt i + 4 * n) 4
  (if bitsOf x 31 24 ≠ 0 then 0 else bitsOf x 15 0, (bitsOf x 23 16 : Nat))

/-- The decayed state, and the saturation it counts (R120). -/
def decay (bf : Bool) (s : W32) (md : Nat) (ed : Int) : W32 × Nat :=
  if bf then (fltAcc (fp32Flush ((accFlt s).mul (.fin false md (ed - 142)))), 0)
  else
    let r := sat32 (rneShift (accInt s * md) (ed - 142))
    (toW32 r.1, r.2)

/-- The state element after this step, and the saturations counted (R61, R120, R130). -/
def stateStep (k : Core) (t : Tile) (i m n : Nat) (old acc : W32) : W32 × Nat :=
  let reset := t.resetMask && maskBit k t i m
  if t.op == 3 then
    let hold := t.resetMask && maskBit k t (t.l + i) m
    if reset && hold then (0, 0)
    else if reset then (acc, 0)
    else if hold then (old, 0)
    else
      let e := decayEntry k t i n
      let r := decay t.bf old e.1 e.2
      (accAdd t.bf r.1 acc, r.2)
  else (accAdd t.bf (if reset then 0 else old) acc, 0)

/-- The seed added to a window sum before the rescale (R111). -/
def addSeed (t : Tile) (g : Geo) (k : Core) (i m n : Nat) (acc : W32) : W32 × Nat :=
  if t.windowed && g.seed then
    let v := k.acc.get 0 (64 * (g.seedRow + i * t.nBlk * t.m + (n / 64) * t.m + m) + n % 64)
    if t.bf then (accAdd true v acc, 0)
    else let r := sat32 (accInt v + accInt acc); (toW32 r.1, r.2)
  else (acc, 0)

def outFmt (o : Nat) : OutFmt := match o with | 0 => .bf16 | 1 => .fp16 | 2 => .int16 | _ => .int32

/-! ### One iteration -/

/-- What an iteration gathers: the core as written so far, counts, and the maxima for the statistics (R99). -/
structure IterAcc where
  core : Core
  count : Nat
  colMax : SMap Nat
  rowMax : SMap Nat
  deriving DecidableEq, Repr

/-- One output element (R61): state, then an accumulator row or a rescaled code in the pool. -/
def putOutput (t : Tile) (g : Geo) (i m n : Nat) (acc : W32) (mr : Nat) (er : Int) (a : IterAcc) : IterAcc :=
  let k := a.core
  let si := 64 * (t.stateRow + i * t.m + m) + n % 64
  let (acc, c1, k) :=
    if t.accState then
      let r := stateStep k t i m n (k.acc.get 0 si) acc
      (r.1, r.2, { k with acc := k.acc.set 0 si r.1 })
    else (acc, 0, k)
  let mag : Option Nat :=
    if t.bf then (match accFlt acc with | .fin _ _ _ => some (acc.toNat % 2 ^ 31) | _ => none) else some (accInt acc).natAbs
  let colMax := match mag with
    | none => a.colMax
    | some v => a.colMax.set 0 n (max v (a.colMax.get 0 n))
  if t.outAcc then
    let oi := (64 * (t.outBase + i * t.outStride + (n / 64) * t.m + m) + n % 64 : Int).toNat
    let v := if t.accumulate then accAdd t.bf (k.acc.get 0 oi) acc else acc
    { a with core := { k with acc := k.acc.set 0 oi v }, count := a.count + c1, colMax := colMax }
  else
    let (acc, c2) := addSeed t g k i m n acc
    let cm := colMult k t i n
    let (y, c3) :=
      if t.bf then rescaleBf (accFlt acc) cm.1 cm.2 (outFmt t.ofmt)
      else rescale (accInt acc) cm.1 cm.2 mr er t.u (outFmt t.ofmt)
    let at_ := (t.outAt i + (m * t.n + n) * 2).toNat
    { a with core := { k with pool := k.pool.wrLe at_ 2 y }, count := a.count + c1 + c2 + c3, colMax := colMax }

/-- The largest finite magnitude of a row of activations, as fp32 (R99). -/
def rowStat (t : Tile) (codes : List (List Nat)) : Nat :=
  let a := rowMax (codes.flatten.map (actVal t.afmt))
  fp32.ofRat false a.1 1 a.2

/-- One row of an iteration: narrowing or the bf16 path, then every output column. -/
def putRow (t : Tile) (g : Geo) (i m : Nat) (a : IterAcc) : IterAcc :=
  let codes := rowCodes a.core t g i m
  let a := { a with rowMax := a.rowMax.set 0 m (rowStat t codes) }
  if t.bf then
    let blocks := codes.map fun b => b.map (actBf t.afmt)
    (List.range t.n).foldl (fun a n => putOutput t g i m n (fltAcc (sumBf a.core t i n blocks)) 0x8000 127 a) a
  else
    let r := narrowRow a.core t i codes
    (List.range t.n).foldl (fun a n =>
      let s := sumInt a.core t i n r.blocks
      putOutput t g i m n (toW32 s.1) r.mr r.er { a with count := a.count + s.2 })
      { a with count := a.count + r.clamps }

/-- The larger of two pooled elements: by value, +0 over −0 (R112). -/
def poolMaxPick (afmt a b : Nat) : Nat :=
  let x := actVal afmt a; let y := actVal afmt b
  if x.lt y then b
  else if y.lt x then a
  else if x.isZero && x.isNeg then b else a

/-- The maximum-pool output (m, n): code and clamps (R112). -/
def poolMaxOut (k : Core) (t : Tile) (g : Geo) (i m n : Nat) : Nat × Nat :=
  let codes := (tapList t g).filterMap fun rs => (tapAt t g i m rs).map fun a => rdPool k (a + 2 * n) 2
  let isNan (x : Nat) : Bool := actVal t.afmt x == .nan
  match codes.filter fun x => !isNan x with
  | [] => if codes.isEmpty then (0, 1) else ((if t.afmt == 1 then fp16 else bf16).nanCode, codes.length)
  | x :: xs => (xs.foldl (poolMaxPick t.afmt) x, (codes.filter isNan).length)

/-- An iteration of a maximum pool. -/
def poolMaxIter (k : Core) (t : Tile) (g : Geo) (i : Nat) : Core × Nat :=
  (List.range (t.m * t.n)).foldl (fun a q =>
    let r := poolMaxOut a.1 t g i (q / t.n) (q % t.n)
    ({ a.1 with pool := a.1.pool.wrLe (t.outAt i + q * 2).toNat 2 r.1 }, a.2 + r.2)) (k, 0)

/-- The statistics record of an iteration (R99). -/
def statRecord (t : Tile) (a : IterAcc) : List Nat :=
  if t.statsAxis == 0 then (List.range t.m).map fun m => a.rowMax.get 0 m
  else (List.range t.n).map fun n => a.colMax.get 0 n

/-- Clamps counted once an iteration: a map scale's reserved byte (R108), decay entries' reserved bytes (R121). -/
def tailClamps (k : Core) (t : Tile) (i : Nat) : Nat :=
  if t.op == 3 then
    ((List.range t.n).map fun (n : Nat) => b2n (decide (bitsOf (rdPool k (t.tailAt i + 4 * n) 4) 31 24 ≠ 0))).sum
  else if t.windowed && t.rowScaled && !t.bf then b2n (mapScale k t i).2
  else 0

/-- One iteration of an MXRUN: the core after it and the counts for its saturation counter. -/
def iterate (k : Core) (t : Tile) (g : Geo) (i : Nat) : Core × Nat :=
  if isPoolMax t g then poolMaxIter k t g i
  else
    let a := (List.range t.m).foldl (fun a m => putRow t g i m a) (⟨k, 0, [], []⟩ : IterAcc)
    let count := a.count + weightClamps k t g (t.wgtAt i) + scaleClamps k t i + tailClamps k t i
    let core :=
      if t.statsEn then
        let rec_ := statRecord t a
        let at_ := t.statsBase * 4096 + i * t.statBytes
        { a.core with pool := a.core.pool.setList 0 at_ (rec_.flatMap fun v => leBytes 4 v) }
      else a.core
    (core, count)

end Sys2Proof.Machine
end

