-- ==== Sys2Proof/Machine/Matrix.lean ====
section
/-! DEFINITION. Class 0x6 and the array's events (R59–R64, R97, R98). -/

namespace Sys2Proof.Machine

/-- MXRUN copies its descriptor into the array (R59), checks it (R63, R110, R122), and stalls while both places are
full. -/
def execMxrun (c : CoreId) (g : Guard) (o : MatOps) (s : State) : Host.Outcome State Fault Refusal :=
  instr c g s fun now d =>
    let k := d.core c.toNat
    let dp := o.dpair.toNat
    if o.rsv ≠ 0 ∨ dp % 2 ≠ 0 then d.coreFault now c.toNat fcIllegal 0
    else if 2 ≤ k.mx.length then d.modCore c.toNat fun k => k.stall .waitMx
    else
      let job : MxJob := ⟨k.rd dp, k.rd (dp + 1), if dp ≤ 12 then k.rd (dp + 2) else 0, 0⟩
      if tileOk (readTile job.lo job.hi) (readGeo job.geom) dp then
        d.modCore c.toNat fun k => { k with mx := k.mx ++ [job] }.next
      else d.coreFault now c.toNat fcDesc 0

/-- MXWAIT stalls until no MXRUN is running or queued (R59); an odd DPAIR is no fault (log entry 100). -/
def execMxwait (c : CoreId) (g : Guard) (o : MatOps) (s : State) : Host.Outcome State Fault Refusal :=
  coreInstr c g s (o.rsv == 0) fun k => if k.mx.isEmpty then k.next else k.stall .waitMx

/-- MXSAT and MXSATCLR, which use no descriptor pair, so that DPAIR may be odd (DEDUCED, log entry 100): a number above 15 raises ILLEGAL_INSTR; they stall while any MXRUN is running or queued (R56,
R97). -/
def satInstr (c : CoreId) (g : Guard) (o : MatOps) (s : State) (f : Nat → Core → Core) :
    Host.Outcome State Fault Refusal :=
  instr c g s fun now d =>
    let k := d.core c.toNat
    let n := (k.rg o.g).toNat
    if o.rsv ≠ 0 ∨ 15 < n then d.coreFault now c.toNat fcIllegal 0
    else if !k.mx.isEmpty then d.modCore c.toNat fun k => k.stall .waitMx
    else d.modCore c.toNat fun k => (f n k).next

/-- MXSAT: g[G] ← saturation counter g[G] (R56). -/
def execMxsat (c : CoreId) (g : Guard) (o : MatOps) (s : State) : Host.Outcome State Fault Refusal :=
  satInstr c g o s fun n k => k.wg o.g (k.sat.get 0 n)

/-- MXSATCLR: counter g[G] ← 0; its CALIB_DRIFT may be raised again (R56, R98). -/
def execMxsatclr (c : CoreId) (g : Guard) (o : MatOps) (s : State) : Host.Outcome State Fault Refusal :=
  satInstr c g o s fun n k => { k with sat := k.sat.set 0 n 0, satFired := k.satFired.set false n false }

/-- The counts of an iteration are added to a counter, which stops at 2^32 − 1; crossing its threshold raises
CALIB_DRIFT (R97, R98). -/
def Device.addSat (d : Device) (now c n count : Nat) : Device :=
  let k := d.core c
  let old := (k.sat.get 0 n).toNat
  let new := min (old + count) (2 ^ 32 - 1)
  let th := (k.thresh.get 0 n).toNat
  let fires := decide (th ≠ 0) && decide (old < th) && decide (th ≤ new) && !k.satFired.get false n
  let d := d.setCore c { k with sat := k.sat.set 0 n (BitVec.ofNat 32 new), satFired := k.satFired.set false n (fires || k.satFired.get false n) }
  if fires then d.raise now 7 0x0060 (mkWord [(c, 0), (n, 8), (k.entry, 16)]) (mkWord [(new, 0)]) else d

/-- MXRUN_ITERATION_DONE: the next iteration of the running MXRUN is applied (R61, R97, R101). -/
def execMxrunIterationDone (c : CoreId) (s : State) : Host.Outcome State Fault Refusal :=
  s.act fun now d =>
    let k := d.core c.toNat
    match k.mx with
    | [] => d
    | j :: r =>
      let t := readTile j.lo j.hi
      if t.l ≤ j.iter then d
      else
        let (k', count) := iterate k t (readGeo j.geom) j.iter
        (d.setCore c.toNat { k' with mx := { j with iter := j.iter + 1 } :: r }).addSat now c.toNat t.satsel count

/-- MXRUN_COMPLETE: every iteration done, the MXRUN leaves the array and its done knot is signalled (R61). -/
def execMxrunComplete (c : CoreId) (s : State) : Host.Outcome State Fault Refusal :=
  s.act fun now d =>
    let k := d.core c.toNat
    match k.mx with
    | [] => d
    | j :: r =>
      let t := readTile j.lo j.hi
      if j.iter < t.l then d
      else
        let d := d.setCore c.toNat { k with mx := r }
        let d := match d.partOf c.toNat with
          | none => d
          | some p => d.modPart p fun q => { q with mxDone := q.mxDone.bump now 1 }
        if t.doneEn then d.signalOwn now c.toNat t.doneKnot else d

end Sys2Proof.Machine
end

