-- ==== Sys2Proof/Machine/Message.lean ====
section
/-! DEFINITION. Messages between cores: windows, SEND and arrival (R65–R67). -/

namespace Sys2Proof.Machine

/-- An own-pool range at a descriptor's BASE, if it lies in the pool. -/
def baseRange (x : BitVec 128) (n : Nat) : Option Nat :=
  if descBase x < 2 ^ 46 ∧ descBase x + n ≤ poolBytes then some (descBase x) else none

/-- SEND (R66): F flits of 32 bytes from d[dSRC].BASE. A length outside 1 to 32 is stated nowhere: F is then a free
value of that range. -/
def execSend (c : CoreId) (g : Guard) (o : SendOps) (s : State) : Host.Outcome State Fault Refusal :=
  instr c g s fun now d =>
    let k := d.core c.toNat
    let len := (k.rg o.len).toNat
    let good := decide (1 ≤ len) && decide (len ≤ 32)
    let f := if good then len else 1 + d.freeWord.toNat % 32
    let dest := k.rg o.dest
    let dst := (dest.extractLsb' 0 6).toNat
    let lst := (k.deadline + 2 ^ 32 - (k.rg o.delta).toNat) % 2 ^ 32
    if o.rsv ≠ 0 then d.coreFault now c.toNat fcIllegal 0
    else match baseRange (k.rd o.src.toNat) (32 * f) with
      | none => d.coreFault now c.toNat fcPoolRange (descBase (k.rd o.src.toNat))
      | some a =>
        let route := msgRoute c.toNat dst f
        let id := d.arb.next
        let m : Msg := ⟨c.toNat, dst, (dest.extractLsb' 8 4).toNat, k.gen, lst, k.pool.getList 0 a (32 * f), id,
          if route.isEmpty then some id else none⟩
        let d := (if good then d else d.tookFree).numbered
        let d := { d with fab := { d.fab with msgs := d.fab.msgs ++ [m] } }
        let d := d.request now route lst ⟨d.partOf c.toNat, some c.toNat, .msg id⟩
        d.modCore c.toNat Core.next

/-- POST: the channel's window (R65). A window that reaches outside the pool raises POOL_RANGE. -/
def execPost (c : CoreId) (g : Guard) (o : PostOps) (s : State) : Host.Outcome State Fault Refusal :=
  instr c g s fun now d =>
    let x := (d.core c.toNat).rd o.win.toNat
    let f := descCount0 x
    if o.rsv ≠ 0 then d.coreFault now c.toNat fcIllegal 0
    else if f = 0 then d.modCore c.toNat fun k => { k with chans := k.chans.set {} o.chan.toNat {} }.next
    else match baseRange x (32 * f) with
      | none => d.coreFault now c.toNat fcPoolRange (descBase x)
      | some a => d.modCore c.toNat fun k =>
          { k with chans := k.chans.set {} o.chan.toNat ⟨a, f, o.knot.toNat, 0, 0⟩ }.next

/-- MFREE returns g[gCOUNT] flits (R65). More than are used is stated nowhere: the flits then used are a free value. -/
def execMfree (c : CoreId) (g : Guard) (o : ChanOps) (s : State) : Host.Outcome State Fault Refusal :=
  instr c g s fun now d =>
    let k := d.core c.toNat
    let ch := k.chans.get {} o.chan.toNat
    let n := (k.rg o.g).toNat
    if o.rsv ≠ 0 then d.coreFault now c.toNat fcIllegal 0
    else if n ≤ ch.used then
      d.modCore c.toNat fun k => { k with chans := k.chans.set {} o.chan.toNat { ch with used := ch.used - n } }.next
    else
      let u := d.freeWord.toNat % (ch.flits + 1)
      d.tookFree.modCore c.toNat fun k => { k with chans := k.chans.set {} o.chan.toNat { ch with used := u } }.next

/-- MPTR: g[gDST] ← the write point as a pool offset (R65). DEDUCED (log entry 99): after a message that ends exactly at the
window's end the write point is the window's end, until the next message passes over it. -/
def execMptr (c : CoreId) (g : Guard) (o : ChanOps) (s : State) : Host.Outcome State Fault Refusal :=
  coreInstr c g s (o.rsv == 0) fun k =>
    let ch := k.chans.get {} o.chan.toNat
    (k.wg o.g (BitVec.ofNat 32 (ch.base + 32 * ch.wp))).next

/-- Where a message of `f` flits goes in a window: its write point, and the flits it uses, those passed over included;
none while there is no room (R65). -/
def Chan.place (ch : Chan) (f : Nat) : Option (Nat × Nat) :=
  let (at_, use) := if ch.flits < ch.wp + f then (0, f + (ch.flits - ch.wp)) else (ch.wp, f)
  if ch.used + use ≤ ch.flits then some (at_, use) else none

/-- A message leaves the fabric: what it holds or asks at arbiter sites goes with it. -/
def Device.takeMsg (d : Device) (m : Msg) : Device :=
  { d with
    fab := { d.fab with msgs := d.fab.msgs.erase m }
    arb := { d.arb with
      reqs := d.arb.reqs.filter fun r => r.job.what != .msg m.id
      holders := d.arb.holders.filter fun h => h.job.what != .msg m.id } }

/-- The message at the head of its receiver's crossbar port: of those that have come there, the first to come; a message that a
core sends to itself passes no crossbar (R68, R69). -/
def Device.atPort (d : Device) (m : Msg) : Bool :=
  match m.turn with
  | none => false
  | some t => m.src == m.dst || d.fab.msgs.all fun x =>
      x.dst != m.dst || x.src == x.dst || (x.turn.all fun u => decide (t ≤ u))

/-- MSG_ARRIVE: the first message in flight from `src` to `dst` (R65–R67), once every site on its path has granted it and the
messages before it at the receiver's port are gone (R69). One without room waits there, and holds its last output. -/
def execMsgArrive (src dst : CoreId) (s : State) : Host.Outcome State Fault Refusal :=
  s.act fun now d =>
    match d.fab.msgs.find? fun m => m.src == src.toNat && m.dst == dst.toNat with
    | none => d
    | some m =>
      if !d.atPort m then d else
      let gone := d.takeMsg m
      let k := d.core dst.toNat
      let ch := k.chans.get {} m.chan
      let f := m.data.length / 32
      let drop := gone.modCore dst.toNat fun k => { k with staleMsg := (k.staleMsg + 1) % 2 ^ 32 }
      if m.gen ≠ k.gen ∨ ch.flits < f then drop
      else match ch.place f with
        | none => d
        | some (at_, use) =>
          let d := gone.modCore dst.toNat fun k =>
            { k with pool := k.pool.setList 0 (ch.base + 32 * at_) m.data
                     chans := k.chans.set {} m.chan { ch with wp := at_ + f, used := ch.used + use } }
          d.signalOwn now dst.toNat ch.knot

end Sys2Proof.Machine
end

