-- ==== Sys2Proof/Machine/PoolAccess.lean ====
section
/-! DEFINITION. Class 0x4: pool loads and stores (R49, R50, R55, R56). -/

namespace Sys2Proof.Machine

def Core.readPool (k : Core) (a n : Nat) : Nat := k.pool.rdLe a n
def Core.writePool (k : Core) (a n x : Nat) : Core := { k with pool := k.pool.wrLe a n x }

/-- With POST, g[GI] is incremented after the access (R56). -/
def Core.postInc (k : Core) (post : Bool) (gi : BitVec 5) : Core := if post then k.wg gi (k.rg gi + 1) else k

/-- A pool access of `n` bytes at element (g[GI], g[GJ]) of d[DESC], aligned to `al`: POOL_RANGE, ALIGN_FAULT, or `f` at
the own-pool offset (R49, R50, R56). -/
def poolAccess (c : CoreId) (g : Guard) (s : State) (ok : Bool) (desc : BitVec 4) (gi gj : BitVec 5) (n al : Nat)
    (f : Nat → Core → Core) : Host.Outcome State Fault Refusal :=
  instr c g s fun now d =>
    let k := d.core c.toNat
    let x := k.rd desc.toNat
    let i := (k.rg gi).toNat
    let j := (k.rg gj).toNat
    if !ok then d.coreFault now c.toNat fcIllegal 0
    else match element x i j n with
      | none => d.coreFault now c.toNat fcPoolRange (elementLog x i j)
      | some a =>
        if a % al ≠ 0 then d.coreFault now c.toNat fcAlign a
        else d.modCore c.toNat fun k => (f a k).next

/-- A load of `n` bytes, sign-extended; a load into g[GI] takes the loaded value and no increment (R56). -/
def poolLoad (c : CoreId) (g : Guard) (o : PoolOps) (s : State) (n : Nat) : Host.Outcome State Fault Refusal :=
  poolAccess c g s (!o.wd) o.desc o.gi o.gj n n fun a k =>
    (k.postInc o.post o.gi).wg o.reg (BitVec.ofInt 32 (signedOf (8 * n) (k.readPool a n)))

/-- A store of the low `n` bytes of a g register. -/
def poolStore (c : CoreId) (g : Guard) (o : PoolOps) (s : State) (n : Nat) : Host.Outcome State Fault Refusal :=
  poolAccess c g s (!o.wd) o.desc o.gi o.gj n n fun a k =>
    (k.writePool a n (k.rg o.reg).toNat).postInc o.post o.gi

/-- LDW (R55, R56). -/
def execLdw (c : CoreId) (g : Guard) (o : PoolOps) (s : State) : Host.Outcome State Fault Refusal :=
  poolLoad c g o s 4

/-- LDH (R55, R56). -/
def execLdh (c : CoreId) (g : Guard) (o : PoolOps) (s : State) : Host.Outcome State Fault Refusal :=
  poolLoad c g o s 2

/-- LDB (R55, R56). -/
def execLdb (c : CoreId) (g : Guard) (o : PoolOps) (s : State) : Host.Outcome State Fault Refusal :=
  poolLoad c g o s 1

/-- STW (R55, R56). -/
def execStw (c : CoreId) (g : Guard) (o : PoolOps) (s : State) : Host.Outcome State Fault Refusal :=
  poolStore c g o s 4

/-- STH (R55, R56). -/
def execSth (c : CoreId) (g : Guard) (o : PoolOps) (s : State) : Host.Outcome State Fault Refusal :=
  poolStore c g o s 2

/-- STB (R55, R56). -/
def execStb (c : CoreId) (g : Guard) (o : PoolOps) (s : State) : Host.Outcome State Fault Refusal :=
  poolStore c g o s 1

/-- REG[4] is reserved for a d register (R55). -/
def dRegOk (r : BitVec 5) : Bool := !r.getLsbD 4

/-- LDV: 256 bytes to a v register, aligned to 64 (R55, R56). -/
def execLdv (c : CoreId) (g : Guard) (o : WidePoolOps) (s : State) : Host.Outcome State Fault Refusal :=
  poolAccess c g s true o.desc o.gi o.gj 256 64 fun a k =>
    (k.postInc o.post o.gi).wv o.reg (BitVec.ofNat 2048 (k.readPool a 256))

/-- STV: 256 bytes from a v register, aligned to 64 (R55, R56). -/
def execStv (c : CoreId) (g : Guard) (o : WidePoolOps) (s : State) : Host.Outcome State Fault Refusal :=
  poolAccess c g s true o.desc o.gi o.gj 256 64 fun a k =>
    (k.writePool a 256 (k.rv o.reg).toNat).postInc o.post o.gi

/-- LDD: 128 bits to the d register REG[3:0], aligned to 16 (R55, R56). -/
def execLdd (c : CoreId) (g : Guard) (o : WidePoolOps) (s : State) : Host.Outcome State Fault Refusal :=
  poolAccess c g s (dRegOk o.reg) o.desc o.gi o.gj 16 16 fun a k =>
    (k.postInc o.post o.gi).wd o.reg.toNat (BitVec.ofNat 128 (k.readPool a 16))

/-- STD: 128 bits from the d register REG[3:0], aligned to 16 (R55, R56). -/
def execStd (c : CoreId) (g : Guard) (o : WidePoolOps) (s : State) : Host.Outcome State Fault Refusal :=
  poolAccess c g s (dRegOk o.reg) o.desc o.gi o.gj 16 16 fun a k =>
    (k.writePool a 16 (k.rd o.reg.toNat).toNat).postInc o.post o.gi

end Sys2Proof.Machine
end

