-- ==== Sys2Proof/Machine/Flags.lean ====
section
/-! DEFINITION. Predicate registers: the comparisons and the predicate logic that write them (R56). -/

namespace Sys2Proof.Machine

/-- A 5-bit field names a predicate: bits [4:3] zero. -/
def predField (i : BitVec 5) : Bool := i.extractLsb' 3 2 == 0
def predOf (i : BitVec 5) : BitVec 3 := i.extractLsb' 0 3

def cmpEq (a b : W32) : Bool := a == b
def cmpNe (a b : W32) : Bool := a != b
def cmpLt (a b : W32) : Bool := a.slt b
def cmpLtu (a b : W32) : Bool := a.ult b
def cmpGe (a b : W32) : Bool := !a.slt b
def cmpGeu (a b : W32) : Bool := !a.ult b

/-- p[DST[2:0]] ← comparison; DST[4:3] must be 0 (R56). -/
def compare (c : CoreId) (g : Guard) (o : RegOps) (s : State) (f : W32 → W32 → Bool) :
    Host.Outcome State Fault Refusal :=
  coreInstr c g s (o.rsv == 0 && predField o.dst) fun k =>
    (k.wp (predOf o.dst) (f (k.rg o.a) (k.rg o.b))).next

/-- Predicate logic on two predicates. -/
def predLogic (c : CoreId) (g : Guard) (o : RegOps) (s : State) (f : Bool → Bool → Bool) :
    Host.Outcome State Fault Refusal :=
  coreInstr c g s (o.rsv == 0 && predField o.dst && predField o.a && predField o.b) fun k =>
    (k.wp (predOf o.dst) (f (k.rp (predOf o.a)) (k.rp (predOf o.b)))).next

end Sys2Proof.Machine
end

