-- ==== Sys2Proof/Machine/Scalar.lean ====
section
/-! DEFINITION. The scalar classes 0x0 to 0x3 (R55, R56): arithmetic, comparisons, predicates, immediates, branches. -/

namespace Sys2Proof.Machine

/-- g[DST] ← g[SRCA] op g[SRCB] (R56). -/
def alu (c : CoreId) (g : Guard) (o : RegOps) (s : State) (f : W32 → W32 → W32) : Host.Outcome State Fault Refusal :=
  coreInstr c g s (o.rsv == 0) fun k => (k.wg o.dst (f (k.rg o.a) (k.rg o.b))).next

/-- g[DST] ← g[SRCA] op sign-extended IMM11 (R56). -/
def aluImm (c : CoreId) (g : Guard) (o : ImmOps) (s : State) (f : W32 → W32 → W32) : Host.Outcome State Fault Refusal :=
  coreInstr c g s true fun k => (k.wg o.dst (f (k.rg o.a) (o.imm.signExtend 32))).next

/-- The shift amount: bits [4:0] of the operand. -/
def shiftAmt (b : W32) : Nat := (b.extractLsb' 0 5).toNat
def opShl (a b : W32) : W32 := a <<< shiftAmt b
def opShr (a b : W32) : W32 := a >>> shiftAmt b
def opSra (a b : W32) : W32 := a.sshiftRight (shiftAmt b)
/-- The signed high word of the product. -/
def opMulh (a b : W32) : W32 := (a.signExtend 64 * b.signExtend 64).extractLsb' 32 32
def opMin (a b : W32) : W32 := if a.slt b then a else b
def opMax (a b : W32) : W32 := if a.slt b then b else a

/-- ADD (R56). -/
def execAdd (c : CoreId) (g : Guard) (o : RegOps) (s : State) : Host.Outcome State Fault Refusal :=
  alu c g o s (· + ·)

/-- SUB (R56). -/
def execSub (c : CoreId) (g : Guard) (o : RegOps) (s : State) : Host.Outcome State Fault Refusal :=
  alu c g o s (· - ·)

/-- AND (R56). -/
def execAnd (c : CoreId) (g : Guard) (o : RegOps) (s : State) : Host.Outcome State Fault Refusal :=
  alu c g o s (· &&& ·)

/-- OR (R56). -/
def execOr (c : CoreId) (g : Guard) (o : RegOps) (s : State) : Host.Outcome State Fault Refusal :=
  alu c g o s (· ||| ·)

/-- XOR (R56). -/
def execXor (c : CoreId) (g : Guard) (o : RegOps) (s : State) : Host.Outcome State Fault Refusal :=
  alu c g o s (· ^^^ ·)

/-- SHL (R56). -/
def execShl (c : CoreId) (g : Guard) (o : RegOps) (s : State) : Host.Outcome State Fault Refusal :=
  alu c g o s opShl

/-- SHR (R56). -/
def execShr (c : CoreId) (g : Guard) (o : RegOps) (s : State) : Host.Outcome State Fault Refusal :=
  alu c g o s opShr

/-- SRA (R56). -/
def execSra (c : CoreId) (g : Guard) (o : RegOps) (s : State) : Host.Outcome State Fault Refusal :=
  alu c g o s opSra

/-- MUL (R56). -/
def execMul (c : CoreId) (g : Guard) (o : RegOps) (s : State) : Host.Outcome State Fault Refusal :=
  alu c g o s (· * ·)

/-- MULH (R56). -/
def execMulh (c : CoreId) (g : Guard) (o : RegOps) (s : State) : Host.Outcome State Fault Refusal :=
  alu c g o s opMulh

/-- MIN (R56). -/
def execMin (c : CoreId) (g : Guard) (o : RegOps) (s : State) : Host.Outcome State Fault Refusal :=
  alu c g o s opMin

/-- MAX (R56). -/
def execMax (c : CoreId) (g : Guard) (o : RegOps) (s : State) : Host.Outcome State Fault Refusal :=
  alu c g o s opMax

/-- CEQ (R56). -/
def execCeq (c : CoreId) (g : Guard) (o : RegOps) (s : State) : Host.Outcome State Fault Refusal :=
  compare c g o s cmpEq

/-- CNE (R56). -/
def execCne (c : CoreId) (g : Guard) (o : RegOps) (s : State) : Host.Outcome State Fault Refusal :=
  compare c g o s cmpNe

/-- CLT (R56). -/
def execClt (c : CoreId) (g : Guard) (o : RegOps) (s : State) : Host.Outcome State Fault Refusal :=
  compare c g o s cmpLt

/-- CLTU (R56). -/
def execCltu (c : CoreId) (g : Guard) (o : RegOps) (s : State) : Host.Outcome State Fault Refusal :=
  compare c g o s cmpLtu

/-- CGE (R56). -/
def execCge (c : CoreId) (g : Guard) (o : RegOps) (s : State) : Host.Outcome State Fault Refusal :=
  compare c g o s cmpGe

/-- CGEU (R56). -/
def execCgeu (c : CoreId) (g : Guard) (o : RegOps) (s : State) : Host.Outcome State Fault Refusal :=
  compare c g o s cmpGeu

/-- PAND (R56). -/
def execPand (c : CoreId) (g : Guard) (o : RegOps) (s : State) : Host.Outcome State Fault Refusal :=
  predLogic c g o s (· && ·)

/-- POR (R56). -/
def execPor (c : CoreId) (g : Guard) (o : RegOps) (s : State) : Host.Outcome State Fault Refusal :=
  predLogic c g o s (· || ·)

/-- PNOT (R56): it uses DST and SRCA. -/
def execPnot (c : CoreId) (g : Guard) (o : RegOps) (s : State) : Host.Outcome State Fault Refusal :=
  coreInstr c g s (o.rsv == 0 && predField o.dst && predField o.a) fun k =>
    (k.wp (predOf o.dst) (!k.rp (predOf o.a))).next

/-- ADDI (R56). -/
def execAddi (c : CoreId) (g : Guard) (o : ImmOps) (s : State) : Host.Outcome State Fault Refusal :=
  aluImm c g o s (· + ·)

/-- ANDI (R56). -/
def execAndi (c : CoreId) (g : Guard) (o : ImmOps) (s : State) : Host.Outcome State Fault Refusal :=
  aluImm c g o s (· &&& ·)

/-- ORI (R56). -/
def execOri (c : CoreId) (g : Guard) (o : ImmOps) (s : State) : Host.Outcome State Fault Refusal :=
  aluImm c g o s (· ||| ·)

/-- XORI (R56). -/
def execXori (c : CoreId) (g : Guard) (o : ImmOps) (s : State) : Host.Outcome State Fault Refusal :=
  aluImm c g o s (· ^^^ ·)

/-- SHLI (R56). -/
def execShli (c : CoreId) (g : Guard) (o : ImmOps) (s : State) : Host.Outcome State Fault Refusal :=
  aluImm c g o s opShl

/-- SHRI (R56). -/
def execShri (c : CoreId) (g : Guard) (o : ImmOps) (s : State) : Host.Outcome State Fault Refusal :=
  aluImm c g o s opShr

/-- SRAI (R56). -/
def execSrai (c : CoreId) (g : Guard) (o : ImmOps) (s : State) : Host.Outcome State Fault Refusal :=
  aluImm c g o s opSra

/-- CLTI (R56): writes p[DST[2:0]]; DST[4:3] must be 0. -/
def execClti (c : CoreId) (g : Guard) (o : ImmOps) (s : State) : Host.Outcome State Fault Refusal :=
  coreInstr c g s (predField o.dst) fun k =>
    (k.wp (predOf o.dst) (cmpLt (k.rg o.a) (o.imm.signExtend 32))).next

/-- MOVL (R56). -/
def execMovl (c : CoreId) (g : Guard) (o : WideOps) (s : State) : Host.Outcome State Fault Refusal :=
  coreInstr c g s (o.rsv == 0) fun k => (k.wg o.dst (o.imm.zeroExtend 32)).next

/-- MOVH (R56): the low half is kept. -/
def execMovh (c : CoreId) (g : Guard) (o : WideOps) (s : State) : Host.Outcome State Fault Refusal :=
  coreInstr c g s (o.rsv == 0) fun k =>
    (k.wg o.dst ((k.rg o.dst).extractLsb' 0 16 |> fun lo => (o.imm ++ lo : BitVec 32))).next

/-- The pool byte offset that an offset in instructions leads to, from the branch itself (R56). An offset below zero is
carried as one beyond the pool, where the fetch raises POOL_RANGE. -/
def branchTarget (pc : Nat) (off : Int) : Nat := ((pc + 4 * off) % 2 ^ 32).toNat

/-- BR (R56). -/
def execBr (c : CoreId) (g : Guard) (off : BitVec 22) (s : State) : Host.Outcome State Fault Refusal :=
  coreInstr c g s true fun k => k.goto (branchTarget k.pc off.toInt)

/-- CALL (R56): g31 receives the offset of the next instruction. -/
def execCall (c : CoreId) (g : Guard) (off : BitVec 22) (s : State) : Host.Outcome State Fault Refusal :=
  coreInstr c g s true fun k =>
    (k.wg 31 (BitVec.ofNat 32 (k.pc + 4))).goto (branchTarget k.pc off.toInt)

/-- JR (R56): the target is g[target] as it stands; a misaligned one raises ALIGN_FAULT (R57). -/
def execJr (c : CoreId) (g : Guard) (o : JrOps) (s : State) : Host.Outcome State Fault Refusal :=
  instr c g s fun now d =>
    let t := ((d.core c.toNat).rg o.g).toNat
    if o.rsv ≠ 0 then d.coreFault now c.toNat fcIllegal 0
    else if t % 4 ≠ 0 then d.coreFault now c.toNat fcAlign t
    else d.modCore c.toNat fun k => k.goto t

/-- LOOP (R56): the counter is decremented, and a non-zero result branches. -/
def execLoop (c : CoreId) (g : Guard) (o : LoopOps) (s : State) : Host.Outcome State Fault Refusal :=
  coreInstr c g s true fun k =>
    let v := k.rg o.g - 1
    let k' := k.wg o.g v
    if v = 0 then k'.next else k'.goto (branchTarget k.pc o.off.toInt)

end Sys2Proof.Machine
end

