-- ==== Sys2Proof/Machine/SystemInstr.lean ====
section
/-! DEFINITION. Class 0xA, and instruction words of a reserved class or function (R52, R54, R57, R58, R78). -/

namespace Sys2Proof.Machine

/-- NOP (R56). -/
def execNop (c : CoreId) (g : Guard) (o : SysOps) (s : State) : Host.Outcome State Fault Refusal :=
  coreInstr c g s (o.rsv == 0) Core.next

/-- The value of a system register (R52); an index not listed reads as 0. -/
def sysValue (c now part : Nat) (k : Core) (idx : Nat) : Nat :=
  match idx with
  | 0x00 => c
  | 0x01 => part
  | 0x02 => k.entry
  | 0x03 => k.gen
  | 0x04 => k.deadline
  | 0x05 => now % 2 ^ 32
  | 0x06 => k.timeHi
  | 0x07 => b2n k.control
  | 0x08 => k.staleMsg
  | 0x09 => k.staleKnot
  | 0x0A => k.mover.length
  | 0x0B => k.mx.length
  | 0x10 => k.user0.toNat
  | _ => 0

/-- What a read does besides: TIME_LO latches TIME_HI, the stale counts clear (R52). -/
def sysReadEffect (now : Nat) (k : Core) (idx : Nat) : Core :=
  match idx with
  | 0x05 => { k with timeHi := now / 2 ^ 32 % 2 ^ 32 }
  | 0x08 => { k with staleMsg := 0 }
  | 0x09 => { k with staleKnot := 0 }
  | _ => k

/-- SYSRD: g[G] ← system register SYSIDX (R52). -/
def execSysrd (c : CoreId) (g : Guard) (o : SysOps) (s : State) : Host.Outcome State Fault Refusal :=
  instr c g s fun now d =>
    if o.rsv ≠ 0 then d.coreFault now c.toNat fcIllegal 0
    else
      let part := (d.partOf c.toNat).getD 0
      d.modCore c.toNat fun k =>
        ((sysReadEffect now k o.idx.toNat).wg o.g (BitVec.ofNat 32 (sysValue c.toNat now part k o.idx.toNat))).next

/-- SYSWR: USER0 alone is writable; any other index raises ILLEGAL_INSTR (R52, R57). -/
def execSyswr (c : CoreId) (g : Guard) (o : SysOps) (s : State) : Host.Outcome State Fault Refusal :=
  coreInstr c g s (o.rsv == 0 && o.idx == 0x10) fun k => { k with user0 := k.rg o.g }.next

/-- What the core's earlier work still waits for: MXRUNs, page-mover entries, SENDs, posted knot operations (R58, R78). -/
def Device.waitsFor (d : Device) (c : Nat) : Option CoreRun :=
  let k := d.core c
  if !k.mx.isEmpty then some .waitMx
  else if !k.mover.isEmpty then some .waitMover
  else if d.fab.msgs.any fun m => m.src == c then some .waitSend
  else if d.fab.knotOps.any fun o => o.core == c then some k.run
  else none

/-- FENCE waits for the core's earlier work (R58). -/
def execFence (c : CoreId) (g : Guard) (o : SysOps) (s : State) : Host.Outcome State Fault Refusal :=
  instr c g s fun now d =>
    if o.rsv ≠ 0 then d.coreFault now c.toNat fcIllegal 0
    else match d.waitsFor c.toNat with
      | some r => d.modCore c.toNat fun k => k.stall r
      | none => d.modCore c.toNat Core.next

/-- A result block of at most 16,384 words inside the pool (R57, R78). -/
def resultOk (at_ words : Nat) : Bool := decide (words ≤ 16384) && decide (at_ + 8 * words ≤ poolBytes)

/-- HALT waits for the core's earlier work and stops the core; on the control core it names the result block (R78). -/
def execHalt (c : CoreId) (g : Guard) (o : SysOps) (s : State) : Host.Outcome State Fault Refusal :=
  instr c g s fun now d =>
    let k := d.core c.toNat
    let at_ := (k.rg o.g).toNat; let n := (k.rg o.g2).toNat
    if o.rsv ≠ 0 then d.coreFault now c.toNat fcIllegal 0
    else if k.control && !resultOk at_ n then d.coreFault now c.toNat fcResultRange at_
    else match d.waitsFor c.toNat with
      | some r => d.modCore c.toNat fun k => k.stall r
      | none => d.modCore c.toNat fun k =>
          { k with run := .halted, pc := (k.pc + 4) % 2 ^ 32, result := if k.control then (at_, n) else k.result }

/-- The word's class or function is reserved (R54, R56). -/
def reservedWord (w : Nat) : Bool :=
  let f (h l : Nat) : Nat := bitsOf w h l
  match f 31 28 with
  | 0x0 => !([0, 1, 2, 3, 4, 5, 6, 7, 8, 9, 10, 11, 16, 17, 18, 19, 20, 21, 24, 25, 26].contains (f 8 4))
  | 0x1 | 0x2 | 0x3 | 0x4 | 0x7 => false
  | 0x5 => !(decide (f 23 18 ≤ 0x0C) || [0x10, 0x11, 0x12, 0x13, 0x14, 0x15, 0x18, 0x19, 0x1A, 0x20, 0x21].contains (f 23 18))
  | 0x6 => decide (3 < f 23 20)
  | 0x8 => decide (4 < f 23 21)
  | 0x9 => decide (2 < f 23 21)
  | 0xA => decide (4 < f 23 20)
  | _ => true

/-- ILLEGAL_INSTR: the core meets an instruction word of a reserved class or function (R54, R57). A guard that fails
raises no fault (R53); a word that is some instruction is that instruction's row. -/
def execIllegalInstr (c : CoreId) (w : BitVec 32) (s : State) : Host.Outcome State Fault Refusal :=
  if reservedWord w.toNat then
    instr c ⟨w.extractLsb' 25 3, w.getLsbD 24⟩ s fun now d => d.coreFault now c.toNat fcIllegal 0
  else s.act fun _ d => d

end Sys2Proof.Machine
end

