-- ==== Sys2Proof/Machine/Vector.lean ====
section
/-! DEFINITION. Class 0x5: the vector unit (R55, R56, R82). A lane is a bit pattern of its format. A lane whose value
the spec leaves open, in whole or in its sign, is a free value (log entries 14, 94). -/

namespace Sys2Proof.Machine

/-- The lane formats (R55 LFMT). -/
inductive Lane where | int32 | fp32 | int16 | bf16 | fp16
  deriving DecidableEq, Repr

/-- LFMT; other codes are no format. -/
def laneOf (x : Nat) : Option Lane :=
  match x with | 0 => some .int32 | 1 => some .fp32 | 2 => some .int16 | 3 => some .bf16 | 4 => some .fp16 | _ => none

def Lane.bits : Lane → Nat | .int32 | .fp32 => 32 | _ => 16
def Lane.count (l : Lane) : Nat := 2048 / l.bits
/-- The float format of a lane; none for the integer formats. -/
def Lane.flt : Lane → Option Fmt
  | .fp32 => some Machine.fp32 | .bf16 => some Machine.bf16 | .fp16 => some Machine.fp16 | _ => none

/-- The lanes of a vector, lane 0 in the lowest bits. -/
def lanes (l : Lane) (x : BitVec 2048) : List Nat :=
  (List.range l.count).map fun i => (x.extractLsb' (l.bits * i) l.bits).toNat
def ofLanes (l : Lane) (xs : List Nat) : BitVec 2048 :=
  BitVec.ofNat 2048 (xs.foldr (fun a acc => a % 2 ^ l.bits + 2 ^ l.bits * acc) 0)

/-- What an operation leaves in a lane: a value, a zero whose sign the spec leaves open, or a value it does not state. -/
inductive LaneOut where
  | val (v : Nat)
  | zero
  | open_
  deriving DecidableEq, Repr

/-- The two zeros of a float lane. -/
def Lane.negZero (l : Lane) : Nat := 2 ^ (l.bits - 1)

/-- A lane's value: as computed, or with the free value of this draw in place of what is open. -/
def LaneOut.nat (n i : Nat) (l : Lane) : LaneOut → Nat
  | .val v => v
  | .zero => if (Config.freeLane n i).msb then l.negZero else 0
  | .open_ => (Config.freeLane n i).toNat

/-- Nothing of the lane is open. -/
def LaneOut.closed : LaneOut → Bool
  | .val _ => true
  | .zero | .open_ => false

/-- A lane that holds one of two results: which is open, unless they agree. -/
def LaneOut.either (l : Lane) (a b : LaneOut) : LaneOut :=
  let isZero (x : LaneOut) : Bool := x == .zero || x == .val 0 || x == .val l.negZero
  if a = b then a else if isZero a && isZero b then .zero else .open_

/-- An operation of two lanes on what earlier operations left in them. -/
def LaneOut.lift (l : Lane) (f : Nat → Nat → LaneOut) : LaneOut → LaneOut → LaneOut
  | .val x, .val y => f x y
  | .zero, .val y => .either l (f 0 y) (f l.negZero y)
  | .val x, .zero => .either l (f x 0) (f x l.negZero)
  | .zero, .zero => .either l (.either l (f 0 0) (f 0 l.negZero)) (.either l (f l.negZero 0) (f l.negZero l.negZero))
  | _, _ => .open_

/-- Lane results put into a vector. -/
def freeLanes (n : Nat) (l : Lane) (xs : List LaneOut) : List Nat :=
  (xs.zip (List.range xs.length)).map fun e => e.1.nat n e.2 l

/-- An exact integer as a lane; a result outside the format is stated nowhere. -/
def intLane (b : Nat) (v : Int) : LaneOut :=
  if -(2 ^ (b - 1) : Nat) ≤ v ∧ v < (2 ^ (b - 1) : Nat) then .val (v % (2 ^ b : Nat)).toNat else .open_

/-- A float result of R82: computed in fp32, then rounded once to the lane format; NaN is canonical. -/
def fltLane (f : Fmt) (v : FVal) : Nat := if f = fp32 then f.encode v else f.encode (fp32.decode (fp32.encode v))

/-- A lane operation: exact on integers, exact then rounded on floats. -/
def laneArith (l : Lane) (fi : Int → Int → Int) (ff : FVal → FVal → FVal) (a b : Nat) : LaneOut :=
  match l.flt with
  | none => intLane l.bits (fi (signedOf l.bits a) (signedOf l.bits b))
  | some f => .val (fltLane f (ff (f.decode a) (f.decode b)))

/-- The greater (`hi`) or lesser of two lanes. IEEE 754 leaves a NaN beside a number, and which zero stands for two of
unlike sign, to its edition: the spec names none, so the first lane is open, and of the second its sign (log entry 14). -/
def laneMax (hi : Bool) (l : Lane) (a b : Nat) : LaneOut :=
  match l.flt with
  | none =>
    let x := signedOf l.bits a; let y := signedOf l.bits b
    .val (if (decide (x < y)) == hi then b else a)
  | some f =>
    let x := f.decode a; let y := f.decode b
    if x = .nan ∧ y = .nan then .val f.nanCode
    else if x = .nan ∨ y = .nan then .open_
    else if x.isZero && y.isZero then (if x.isNeg == y.isNeg then .val a else .zero)
    else .val (if (x.lt y) == hi then b else a)

/-- Bit patterns, lane by lane. -/
def laneBits (l : Lane) (f : Nat → Nat → Nat) (a b : Nat) : LaneOut := .val (f a b % 2 ^ l.bits)

/-- Shifts of a lane's bit pattern by the other lane; an amount of the lane's width or more is stated nowhere. -/
def laneShift (l : Lane) (f : Nat → Nat → Nat) (a b : Nat) : LaneOut :=
  if b < l.bits then .val (f a b % 2 ^ l.bits) else .open_
def laneSra (l : Lane) (a n : Nat) : Nat := ((signedOf l.bits a).shiftRight n % (2 ^ l.bits : Nat)).toNat

/-- An instruction of the vector unit in a lane format that `ok` admits; other formats raise ILLEGAL_INSTR (R55). -/
def vecInstr (c : CoreId) (g : Guard) (o : VecOps) (s : State) (ok : Lane → Bool) (f : Lane → Device → Device) :
    Host.Outcome State Fault Refusal :=
  instr c g s fun now d =>
    match laneOf o.lfmt.toNat with
    | none => d.coreFault now c.toNat fcIllegal 0
    | some l => if ok l then f l d else d.coreFault now c.toNat fcIllegal 0

/-- The vector `xs` is written to vd; the free lanes take this draw's values. -/
def Device.putLanes (d : Device) (c : Nat) (vd : BitVec 5) (l : Lane) (xs : List LaneOut) : Device :=
  let n := d.freeCount
  let d := if xs.all LaneOut.closed then d else d.tookFree
  d.modCore c fun k => (k.wv vd (ofLanes l (freeLanes n l xs))).next

/-- vd ← va op vb, lane by lane. -/
def vecBin (c : CoreId) (g : Guard) (o : VecOps) (s : State) (f : Lane → Nat → Nat → LaneOut) :
    Host.Outcome State Fault Refusal :=
  vecInstr c g o s (fun _ => true) fun l d =>
    let k := d.core c.toNat
    d.putLanes c.toNat o.vd l (List.zipWith (f l) (lanes l (k.rv o.va)) (lanes l (k.rv o.vb)))

/-- vd ← op va, lane by lane, in the formats `ok` admits. -/
def vecUn (c : CoreId) (g : Guard) (o : VecOps) (s : State) (ok : Lane → Bool) (f : Lane → Nat → LaneOut) :
    Host.Outcome State Fault Refusal :=
  vecInstr c g o s ok fun l d =>
    d.putLanes c.toNat o.vd l ((lanes l ((d.core c.toNat).rv o.va)).map (f l))

def isFlt (l : Lane) : Bool := l.flt.isSome

/-- A correctly rounded function of a float lane. -/
def laneFn (f : Fmt → FVal → Nat) (l : Lane) (a : Nat) : LaneOut :=
  match l.flt with
  | none => .open_
  | some m => .val (if m = fp32 then f fp32 (m.decode a) else m.encode (fp32.decode (f fp32 (m.decode a))))

/-- VADD (R56, R82). -/
def execVadd (c : CoreId) (g : Guard) (o : VecOps) (s : State) : Host.Outcome State Fault Refusal :=
  vecBin c g o s fun l => laneArith l (· + ·) FVal.add

/-- VSUB (R56, R82). -/
def execVsub (c : CoreId) (g : Guard) (o : VecOps) (s : State) : Host.Outcome State Fault Refusal :=
  vecBin c g o s fun l => laneArith l (· - ·) fun a b => a.add b.neg

/-- VMUL (R56, R82). -/
def execVmul (c : CoreId) (g : Guard) (o : VecOps) (s : State) : Host.Outcome State Fault Refusal :=
  vecBin c g o s fun l => laneArith l (· * ·) FVal.mul

/-- VMAX (R56). -/
def execVmax (c : CoreId) (g : Guard) (o : VecOps) (s : State) : Host.Outcome State Fault Refusal :=
  vecBin c g o s (laneMax true)

/-- VMIN (R56). -/
def execVmin (c : CoreId) (g : Guard) (o : VecOps) (s : State) : Host.Outcome State Fault Refusal :=
  vecBin c g o s (laneMax false)

/-- VABS (R56). -/
def execVabs (c : CoreId) (g : Guard) (o : VecOps) (s : State) : Host.Outcome State Fault Refusal :=
  vecUn c g o s (fun _ => true) fun l a => laneArith l (fun x _ => (x.natAbs : Int)) (fun x _ => x.abs) a 0

/-- VNEG (R56). -/
def execVneg (c : CoreId) (g : Guard) (o : VecOps) (s : State) : Host.Outcome State Fault Refusal :=
  vecUn c g o s (fun _ => true) fun l a => laneArith l (fun x _ => -x) (fun x _ => x.neg) a 0

/-- VAND (R56). -/
def execVand (c : CoreId) (g : Guard) (o : VecOps) (s : State) : Host.Outcome State Fault Refusal :=
  vecBin c g o s fun l => laneBits l (· &&& ·)

/-- VOR (R56). -/
def execVor (c : CoreId) (g : Guard) (o : VecOps) (s : State) : Host.Outcome State Fault Refusal :=
  vecBin c g o s fun l => laneBits l (· ||| ·)

/-- VXOR (R56). -/
def execVxor (c : CoreId) (g : Guard) (o : VecOps) (s : State) : Host.Outcome State Fault Refusal :=
  vecBin c g o s fun l => laneBits l (· ^^^ ·)

/-- VSHL (R56). -/
def execVshl (c : CoreId) (g : Guard) (o : VecOps) (s : State) : Host.Outcome State Fault Refusal :=
  vecBin c g o s fun l => laneShift l (· <<< ·)

/-- VSHR (R56). -/
def execVshr (c : CoreId) (g : Guard) (o : VecOps) (s : State) : Host.Outcome State Fault Refusal :=
  vecBin c g o s fun l => laneShift l (· >>> ·)

/-- VSRA (R56). -/
def execVsra (c : CoreId) (g : Guard) (o : VecOps) (s : State) : Host.Outcome State Fault Refusal :=
  vecBin c g o s fun l => laneShift l (laneSra l)

/-- VFMA: vd ← vd + va × vb (R56). -/
def execVfma (c : CoreId) (g : Guard) (o : VecOps) (s : State) : Host.Outcome State Fault Refusal :=
  vecInstr c g o s isFlt fun l d =>
    let k := d.core c.toNat
    let fma (x a b : Nat) : LaneOut := match l.flt with
      | none => .open_
      | some f => .val (fltLane f ((f.decode x).add ((f.decode a).mul (f.decode b))))
    d.putLanes c.toNat o.vd l
      (List.zipWith (fun x ab => fma x ab.1 ab.2) (lanes l (k.rv o.vd)) ((lanes l (k.rv o.va)).zip (lanes l (k.rv o.vb))))

/-- VRECIP (R56, R82). -/
def execVrecip (c : CoreId) (g : Guard) (o : VecOps) (s : State) : Host.Outcome State Fault Refusal :=
  vecUn c g o s isFlt (laneFn Fmt.recip)

/-- VRSQRT (R56, R82). -/
def execVrsqrt (c : CoreId) (g : Guard) (o : VecOps) (s : State) : Host.Outcome State Fault Refusal :=
  vecUn c g o s isFlt (laneFn Fmt.rsqrt)

/-- VEXP2 (R56, R82). -/
def execVexp2 (c : CoreId) (g : Guard) (o : VecOps) (s : State) : Host.Outcome State Fault Refusal :=
  vecUn c g o s isFlt (laneFn Fmt.exp2)

/-- One level of the reduction tree: lanes 2i and 2i + 1 (R56). -/
def pairUp (l : Lane) (f : Nat → Nat → LaneOut) : List LaneOut → List LaneOut
  | [] => []
  | [a] => [a]
  | a :: b :: r => .lift l f a b :: pairUp l f r

/-- The binary tree over 2^n lanes. -/
def reduceTree (l : Lane) (f : Nat → Nat → LaneOut) : Nat → List LaneOut → LaneOut
  | 0, xs => xs.headD .open_
  | n + 1, xs => reduceTree l f n (pairUp l f xs)

/-- Lane 0 of vd receives the reduction of va; the other lanes are zero (R56). -/
def vecRed (c : CoreId) (g : Guard) (o : VecOps) (s : State) (f : Lane → Nat → Nat → LaneOut) :
    Host.Outcome State Fault Refusal :=
  vecInstr c g o s (fun _ => true) fun l d =>
    let xs := (lanes l ((d.core c.toNat).rv o.va)).map LaneOut.val
    d.putLanes c.toNat o.vd l (reduceTree l (f l) 7 xs :: List.replicate (l.count - 1) (.val 0))

/-- VREDSUM (R56). DEDUCED (log entry 94): each node of the tree is a lane operation, so in bf16 and fp16 each is rounded
to the lane format. -/
def execVredsum (c : CoreId) (g : Guard) (o : VecOps) (s : State) : Host.Outcome State Fault Refusal :=
  vecRed c g o s fun l => laneArith l (· + ·) FVal.add

/-- VREDMAX (R56). -/
def execVredmax (c : CoreId) (g : Guard) (o : VecOps) (s : State) : Host.Outcome State Fault Refusal :=
  vecRed c g o s (laneMax true)

/-- A value limited to `b` signed bits, as a pattern. -/
def satLane (b : Nat) (v : Int) : Nat :=
  ((clampInt (-(2 ^ (b - 1) : Nat)) ((2 ^ (b - 1) : Nat) - 1) v) % (2 ^ b : Nat)).toNat

/-- The conversions of R82. -/
def convertLane (src dst : Lane) (a : Nat) : Nat :=
  match src.flt, dst.flt with
  | none, none => satLane dst.bits (signedOf src.bits a)
  | none, some f => let v := signedOf src.bits a; f.ofRat (decide (v < 0)) v.natAbs 1 0
  | some f, some h => h.encode (f.decode a)
  | some f, none =>
    match f.decode a with
    | .nan => 0
    | .inf n => satLane dst.bits (if n then -(2 ^ 40 : Nat) else (2 ^ 40 : Nat))
    | .fin n m e => satLane dst.bits (roundInt n m (min e 200))

/-- VCVT (R56, R82): lane i converts to lane i of the format in VB[2:0]; lanes of the result that no source lane
feeds are stated nowhere. -/
def execVcvt (c : CoreId) (g : Guard) (o : VecOps) (s : State) : Host.Outcome State Fault Refusal :=
  vecInstr c g o s (fun _ => (laneOf (o.vb.toNat % 8)).isSome) fun l d =>
    match laneOf (o.vb.toNat % 8) with
    | none => d
    | some t =>
      let xs := ((lanes l ((d.core c.toNat).rv o.va)).map fun a => LaneOut.val (convertLane l t a)).take t.count
      d.putLanes c.toNat o.vd t (xs ++ List.replicate (t.count - xs.length) .open_)

/-- VBCAST: every lane takes g[VA] (R56), a lane of 16 bits its low half. -/
def execVbcast (c : CoreId) (g : Guard) (o : VecOps) (s : State) : Host.Outcome State Fault Refusal :=
  vecInstr c g o s (fun _ => true) fun l d =>
    d.putLanes c.toNat o.vd l (List.replicate l.count (.val ((d.core c.toNat).rg o.va).toNat))

/-- VGETL: g[VD] ← lane g[VB] of va (R56). A lane beyond the last, and the upper half of g[VD] for a lane of 16 bits,
are stated nowhere. -/
def execVgetl (c : CoreId) (g : Guard) (o : VecOps) (s : State) : Host.Outcome State Fault Refusal :=
  vecInstr c g o s (fun _ => true) fun l d =>
    let k := d.core c.toNat
    let i := (k.rg o.vb).toNat
    let free := Config.freeLane d.freeCount 0
    if l.count ≤ i then d.tookFree.modCore c.toNat fun k => (k.wg o.vd free).next
    else
      let v := (lanes l (k.rv o.va)).getD i 0
      if l.bits = 32 then d.modCore c.toNat fun k => (k.wg o.vd (BitVec.ofNat 32 v)).next
      else d.tookFree.modCore c.toNat fun k => (k.wg o.vd (free.extractLsb' 16 16 ++ BitVec.ofNat 16 v)).next

/-- Accumulator cell: row × 64 + column (R48). -/
def Core.accRow (k : Core) (r : Nat) : List Nat := (k.acc.getList 0 (64 * r) 64).map (·.toNat)

/-- VACCRD and VACCWR (R56, R59): LFMT must be 000; they stall while any MXRUN is running or queued; a row above 4,095
raises ACC_RANGE. -/
def accMove (c : CoreId) (g : Guard) (o : VecOps) (s : State) (f : Nat → Core → Core) :
    Host.Outcome State Fault Refusal :=
  instr c g s fun now d =>
    let k := d.core c.toNat
    let r := (k.rg o.va).toNat
    if o.lfmt ≠ 0 then d.coreFault now c.toNat fcIllegal 0
    else if !k.mx.isEmpty then d.modCore c.toNat fun k => k.stall .waitMx
    else if 4095 < r then d.coreFault now c.toNat fcAccRange 0
    else d.modCore c.toNat fun k => (f r k).next

/-- VACCRD: vd ← accumulator row g[VA] (R56). -/
def execVaccrd (c : CoreId) (g : Guard) (o : VecOps) (s : State) : Host.Outcome State Fault Refusal :=
  accMove c g o s fun r k => k.wv o.vd (ofLanes .int32 (k.accRow r))

/-- VACCWR: accumulator row g[VA] ← vd (R56). -/
def execVaccwr (c : CoreId) (g : Guard) (o : VecOps) (s : State) : Host.Outcome State Fault Refusal :=
  accMove c g o s fun r k =>
    { k with acc := k.acc.setList 0 (64 * r) ((lanes .int32 (k.rv o.vd)).map (BitVec.ofNat 32)) }

end Sys2Proof.Machine
end

