-- ==== Sys2Proof/Machine/Dispatch.lean ====
section
/-! DEFINITION. The dispatch: one arm per command of the table. -/

namespace Sys2Proof.Machine

/-- The effect of a command on everything but the queue. -/
def exec (i : Instr) (s : State) : Host.Outcome State Fault Refusal :=
  match i with
  | .add c g o => Sys2Proof.Machine.execAdd c g o s
  | .sub c g o => Sys2Proof.Machine.execSub c g o s
  | .and_ c g o => Sys2Proof.Machine.execAnd c g o s
  | .or_ c g o => Sys2Proof.Machine.execOr c g o s
  | .xor_ c g o => Sys2Proof.Machine.execXor c g o s
  | .shl c g o => Sys2Proof.Machine.execShl c g o s
  | .shr c g o => Sys2Proof.Machine.execShr c g o s
  | .sra c g o => Sys2Proof.Machine.execSra c g o s
  | .mul c g o => Sys2Proof.Machine.execMul c g o s
  | .mulh c g o => Sys2Proof.Machine.execMulh c g o s
  | .min_ c g o => Sys2Proof.Machine.execMin c g o s
  | .max_ c g o => Sys2Proof.Machine.execMax c g o s
  | .ceq c g o => Sys2Proof.Machine.execCeq c g o s
  | .cne c g o => Sys2Proof.Machine.execCne c g o s
  | .clt c g o => Sys2Proof.Machine.execClt c g o s
  | .cltu c g o => Sys2Proof.Machine.execCltu c g o s
  | .cge c g o => Sys2Proof.Machine.execCge c g o s
  | .cgeu c g o => Sys2Proof.Machine.execCgeu c g o s
  | .pand c g o => Sys2Proof.Machine.execPand c g o s
  | .por c g o => Sys2Proof.Machine.execPor c g o s
  | .pnot c g o => Sys2Proof.Machine.execPnot c g o s
  | .addi c g o => Sys2Proof.Machine.execAddi c g o s
  | .andi c g o => Sys2Proof.Machine.execAndi c g o s
  | .ori c g o => Sys2Proof.Machine.execOri c g o s
  | .xori c g o => Sys2Proof.Machine.execXori c g o s
  | .shli c g o => Sys2Proof.Machine.execShli c g o s
  | .shri c g o => Sys2Proof.Machine.execShri c g o s
  | .srai c g o => Sys2Proof.Machine.execSrai c g o s
  | .clti c g o => Sys2Proof.Machine.execClti c g o s
  | .movl c g o => Sys2Proof.Machine.execMovl c g o s
  | .movh c g o => Sys2Proof.Machine.execMovh c g o s
  | .br c g off => Sys2Proof.Machine.execBr c g off s
  | .call c g off => Sys2Proof.Machine.execCall c g off s
  | .jr c g o => Sys2Proof.Machine.execJr c g o s
  | .loop c g o => Sys2Proof.Machine.execLoop c g o s
  | .ldw c g o => Sys2Proof.Machine.execLdw c g o s
  | .ldh c g o => Sys2Proof.Machine.execLdh c g o s
  | .ldb c g o => Sys2Proof.Machine.execLdb c g o s
  | .stw c g o => Sys2Proof.Machine.execStw c g o s
  | .sth c g o => Sys2Proof.Machine.execSth c g o s
  | .stb c g o => Sys2Proof.Machine.execStb c g o s
  | .ldv c g o => Sys2Proof.Machine.execLdv c g o s
  | .stv c g o => Sys2Proof.Machine.execStv c g o s
  | .ldd c g o => Sys2Proof.Machine.execLdd c g o s
  | .std c g o => Sys2Proof.Machine.execStd c g o s
  | .vadd c g o => Sys2Proof.Machine.execVadd c g o s
  | .vsub c g o => Sys2Proof.Machine.execVsub c g o s
  | .vmul c g o => Sys2Proof.Machine.execVmul c g o s
  | .vmax c g o => Sys2Proof.Machine.execVmax c g o s
  | .vmin c g o => Sys2Proof.Machine.execVmin c g o s
  | .vabs c g o => Sys2Proof.Machine.execVabs c g o s
  | .vneg c g o => Sys2Proof.Machine.execVneg c g o s
  | .vand c g o => Sys2Proof.Machine.execVand c g o s
  | .vor c g o => Sys2Proof.Machine.execVor c g o s
  | .vxor c g o => Sys2Proof.Machine.execVxor c g o s
  | .vshl c g o => Sys2Proof.Machine.execVshl c g o s
  | .vshr c g o => Sys2Proof.Machine.execVshr c g o s
  | .vsra c g o => Sys2Proof.Machine.execVsra c g o s
  | .vfma c g o => Sys2Proof.Machine.execVfma c g o s
  | .vrecip c g o => Sys2Proof.Machine.execVrecip c g o s
  | .vrsqrt c g o => Sys2Proof.Machine.execVrsqrt c g o s
  | .vexp2 c g o => Sys2Proof.Machine.execVexp2 c g o s
  | .vredsum c g o => Sys2Proof.Machine.execVredsum c g o s
  | .vredmax c g o => Sys2Proof.Machine.execVredmax c g o s
  | .vcvt c g o => Sys2Proof.Machine.execVcvt c g o s
  | .vbcast c g o => Sys2Proof.Machine.execVbcast c g o s
  | .vgetl c g o => Sys2Proof.Machine.execVgetl c g o s
  | .vaccrd c g o => Sys2Proof.Machine.execVaccrd c g o s
  | .vaccwr c g o => Sys2Proof.Machine.execVaccwr c g o s
  | .mxrun c g o => Sys2Proof.Machine.execMxrun c g o s
  | .mxwait c g o => Sys2Proof.Machine.execMxwait c g o s
  | .mxsat c g o => Sys2Proof.Machine.execMxsat c g o s
  | .mxsatclr c g o => Sys2Proof.Machine.execMxsatclr c g o s
  | .send c g o => Sys2Proof.Machine.execSend c g o s
  | .post c g o => Sys2Proof.Machine.execPost c g o s
  | .mfree c g o => Sys2Proof.Machine.execMfree c g o s
  | .mptr c g o => Sys2Proof.Machine.execMptr c g o s
  | .ksig c g o => Sys2Proof.Machine.execKsig c g o s
  | .kwait c g o => Sys2Proof.Machine.execKwait c g o s
  | .kinit c g o => Sys2Proof.Machine.execKinit c g o s
  | .karm c g o => Sys2Proof.Machine.execKarm c g o s
  | .krd c g o => Sys2Proof.Machine.execKrd c g o s
  | .pmq c g o => Sys2Proof.Machine.execPmq c g o s
  | .pmwait c g o => Sys2Proof.Machine.execPmwait c g o s
  | .kvwalk c g o => Sys2Proof.Machine.execKvwalk c g o s
  | .nop c g o => Sys2Proof.Machine.execNop c g o s
  | .sysrd c g o => Sys2Proof.Machine.execSysrd c g o s
  | .syswr c g o => Sys2Proof.Machine.execSyswr c g o s
  | .fence c g o => Sys2Proof.Machine.execFence c g o s
  | .halt c g o => Sys2Proof.Machine.execHalt c g o s
  | .mxrunIterationDone c => Sys2Proof.Machine.execMxrunIterationDone c s
  | .mxrunComplete c => Sys2Proof.Machine.execMxrunComplete c s
  | .msgArrive src dst => Sys2Proof.Machine.execMsgArrive src dst s
  | .knotOpApply idx => Sys2Proof.Machine.execKnotOpApply idx s
  | .pmEntryStart c => Sys2Proof.Machine.execPmEntryStart c s
  | .pmEntryComplete c idx => Sys2Proof.Machine.execPmEntryComplete c idx s
  | .scheduleRecordIssue c => Sys2Proof.Machine.execScheduleRecordIssue c s
  | .cmdPortWrite ws flt => Sys2Proof.Machine.execCmdPortWrite ws flt s
  | .portResyncCmd v => Sys2Proof.Machine.execPortResyncCmd v s
  | .replyRewind v => Sys2Proof.Machine.execReplyRewind v s
  | .replyPortRead n => Sys2Proof.Machine.execReplyPortRead n s
  | .intCauseWrite v => Sys2Proof.Machine.execIntCauseWrite v s
  | .intMaskWrite v => Sys2Proof.Machine.execIntMaskWrite v s
  | .xspiModeSet v => Sys2Proof.Machine.execXspiModeSet v s
  | .regWriteOther reg wide v => Sys2Proof.Machine.execRegWriteOther reg wide v s
  | .perstReset flr => Sys2Proof.Machine.execPerstReset flr s
  | .xspiCsWake lowNs => Sys2Proof.Machine.execXspiCsWake lowNs s
  | .freeZeroDone slot => Sys2Proof.Machine.execFreeZeroDone slot s
  | .flushDone slot => Sys2Proof.Machine.execFlushDone slot s
  | .migrateDone slot => Sys2Proof.Machine.execMigrateDone slot s
  | .itemDispatch p => Sys2Proof.Machine.execItemDispatch p s
  | .itemComplete p => Sys2Proof.Machine.execItemComplete p s
  | .programWindowEnter ch => Sys2Proof.Machine.execProgramWindowEnter ch s
  | .programWindowOpen ch => Sys2Proof.Machine.execProgramWindowOpen ch s
  | .programWindowClose ch => Sys2Proof.Machine.execProgramWindowClose ch s
  | .flashOpIssue ch => Sys2Proof.Machine.execFlashOpIssue ch s
  | .arbiterGrant site inst => Sys2Proof.Machine.execArbiterGrant site inst s
  | .requestPast site inst port => Sys2Proof.Machine.execRequestPast site inst port s
  | .holdCut site inst => Sys2Proof.Machine.execHoldCut site inst s
  | .replicaSample at_ low => Sys2Proof.Machine.execReplicaSample at_ low s
  | .shortfallAtMax dom => Sys2Proof.Machine.execShortfallAtMax dom s
  | .domainPaceAck dom => Sys2Proof.Machine.execDomainPaceAck dom s
  | .paceAckTimeout r => Sys2Proof.Machine.execPaceAckTimeout r s
  | .avsSettled r => Sys2Proof.Machine.execAvsSettled r s
  | .paceApply r => Sys2Proof.Machine.execPaceApply r s
  | .avsSettleTimeout r => Sys2Proof.Machine.execAvsSettleTimeout r s
  | .avsFrameResponse r crcOk => Sys2Proof.Machine.execAvsFrameResponse r crcOk s
  | .thermalSample hub half0 half1 => Sys2Proof.Machine.execThermalSample hub half0 half1 s
  | .thermalCapFall die => Sys2Proof.Machine.execThermalCapFall die s
  | .thermalCapRise die => Sys2Proof.Machine.execThermalCapRise die s
  | .watchdogExpire p => Sys2Proof.Machine.execWatchdogExpire p s
  | .computeResetComplete p failed => Sys2Proof.Machine.execComputeResetComplete p failed s
  | .hubFault unit cause => Sys2Proof.Machine.execHubFault unit cause s
  | .heartbeat half => Sys2Proof.Machine.execHeartbeat half s
  | .stewardLost half cause => Sys2Proof.Machine.execStewardLost half cause s
  | .leaseRenew half => Sys2Proof.Machine.execLeaseRenew half s
  | .leaseAcquire half => Sys2Proof.Machine.execLeaseAcquire half s
  | .stewardControlWrite half unit epoch => Sys2Proof.Machine.execStewardControlWrite half unit epoch s
  | .stewardRestartTest half pass => Sys2Proof.Machine.execStewardRestartTest half pass s
  | .bridgePacketFail side lane retryFailed => Sys2Proof.Machine.execBridgePacketFail side lane retryFailed s
  | .spareLaneTrained side => Sys2Proof.Machine.execSpareLaneTrained side s
  | .knotSlotParity index => Sys2Proof.Machine.execKnotSlotParity index s
  | .sramRowError arr unit row uncorrectable held bad => Sys2Proof.Machine.execSramRowError arr unit row uncorrectable held bad s
  | .scanStart unit => Sys2Proof.Machine.execScanStart unit s
  | .scanComplete unit => Sys2Proof.Machine.execScanComplete unit s
  | .digestEpoch half0 half1 => Sys2Proof.Machine.execDigestEpoch half0 half1 s
  | .sameBankRefresh sc bank => Sys2Proof.Machine.execSameBankRefresh sc bank s
  | .zqCalibration half cs => Sys2Proof.Machine.execZqCalibration half cs s
  | .mr4Poll sc cs interval => Sys2Proof.Machine.execMr4Poll sc cs interval s
  | .neighbourRefreshIssue sc => Sys2Proof.Machine.execNeighbourRefreshIssue sc s
  | .skewWindow half bursts => Sys2Proof.Machine.execSkewWindow half bursts s
  | .dramBurstRead half page burst ecc use => Sys2Proof.Machine.execDramBurstRead half page burst ecc use s
  | .migrationPageCopied half ecc use => Sys2Proof.Machine.execMigrationPageCopied half ecc use s
  | .patrolRead half cs => Sys2Proof.Machine.execPatrolRead half cs s
  | .parityAlert sc => Sys2Proof.Machine.execParityAlert sc s
  | .replayFail sc cs => Sys2Proof.Machine.execReplayFail sc cs s
  | .freqChangeDone alerts => Sys2Proof.Machine.execFreqChangeDone alerts s
  | .mereFillDone half line => Sys2Proof.Machine.execMereFillDone half line s
  | .peatReadDone lpn bitErrors => Sys2Proof.Machine.execPeatReadDone lpn bitErrors s
  | .peatReread lpn ok => Sys2Proof.Machine.execPeatReread lpn ok s
  | .peatProgramDone ch ok => Sys2Proof.Machine.execPeatProgramDone ch ok s
  | .peatEraseDone ch ok => Sys2Proof.Machine.execPeatEraseDone ch ok s
  | .blockEraseStart block => Sys2Proof.Machine.execBlockEraseStart block s
  | .peatMount read => Sys2Proof.Machine.execPeatMount read s
  | .firstBootMount badBlocks rejected => Sys2Proof.Machine.execFirstBootMount badBlocks rejected s
  | .csiFrameStart port vc sensorFrame => Sys2Proof.Machine.execCsiFrameStart port vc sensorFrame s
  | .csiLine port vc dt payload check ovr => Sys2Proof.Machine.execCsiLine port vc dt payload check ovr s
  | .csiFrameEnd port vc => Sys2Proof.Machine.execCsiFrameEnd port vc s
  | .csiPacketGap port => Sys2Proof.Machine.execCsiPacketGap port s
  | .csiLinkTimeout port => Sys2Proof.Machine.execCsiLinkTimeout port s
  | .pipeFrameComplete pipe => Sys2Proof.Machine.execPipeFrameComplete pipe s
  | .pdmPinActive pin => Sys2Proof.Machine.execPdmPinActive pin s
  | .pdmPinInactive pin => Sys2Proof.Machine.execPdmPinInactive pin s
  | .audioBlockComplete lp hq => Sys2Proof.Machine.execAudioBlockComplete lp hq s
  | .motionWatchFrame watch lineLen bits samples => Sys2Proof.Machine.execMotionWatchFrame watch lineLen bits samples s
  | .pwrMainsChange level => Sys2Proof.Machine.execPwrMainsChange level s
  | .pwrBattAccept level => Sys2Proof.Machine.execPwrBattAccept level s
  | .porstRelease bootSel bank0Ok bank1Ok => Sys2Proof.Machine.execPorstRelease bootSel bank0Ok bank1Ok s
  | .trainingComplete popOk kit last results lowFails => Sys2Proof.Machine.execTrainingComplete popOk kit last results lowFails s
  | .entropyStartupDone pass => Sys2Proof.Machine.execEntropyStartupDone pass s
  | .hotJoinRequest bus => Sys2Proof.Machine.execHotJoinRequest bus s
  | .entdaa bus targets => Sys2Proof.Machine.execEntdaa bus targets s
  | .i3cRetry bus targets => Sys2Proof.Machine.execI3cRetry bus targets s
  | .illegalInstr c w => Sys2Proof.Machine.execIllegalInstr c w s
  | .packetCheck => Sys2Proof.Machine.execPacketCheck s
  | .eventPortRead => Sys2Proof.Machine.execEventPortRead s
  | .eventAvailRead => Sys2Proof.Machine.execEventAvailRead s
  | .timeReadLow => Sys2Proof.Machine.execTimeReadLow s
  | .perstDeassert => Sys2Proof.Machine.execPerstDeassert s
  | .echo => Sys2Proof.Machine.execEcho s
  | .identify => Sys2Proof.Machine.execIdentify s
  | .getStatus => Sys2Proof.Machine.execGetStatus s
  | .tenantOpen => Sys2Proof.Machine.execTenantOpen s
  | .tenantClose => Sys2Proof.Machine.execTenantClose s
  | .contextOpen => Sys2Proof.Machine.execContextOpen s
  | .contextClose => Sys2Proof.Machine.execContextClose s
  | .alloc => Sys2Proof.Machine.execAlloc s
  | .free => Sys2Proof.Machine.execFree s
  | .put => Sys2Proof.Machine.execPut s
  | .get => Sys2Proof.Machine.execGet s
  | .flush => Sys2Proof.Machine.execFlush s
  | .migrate => Sys2Proof.Machine.execMigrate s
  | .weaveLoad => Sys2Proof.Machine.execWeaveLoad s
  | .weaveBind => Sys2Proof.Machine.execWeaveBind s
  | .weaveDrop => Sys2Proof.Machine.execWeaveDrop s
  | .partitionSet => Sys2Proof.Machine.execPartitionSet s
  | .run => Sys2Proof.Machine.execRun s
  | .queryDue => Sys2Proof.Machine.execQueryDue s
  | .cancel => Sys2Proof.Machine.execCancel s
  | .decide => Sys2Proof.Machine.execDecide s
  | .streamOpen => Sys2Proof.Machine.execStreamOpen s
  | .streamStep => Sys2Proof.Machine.execStreamStep s
  | .streamClose => Sys2Proof.Machine.execStreamClose s
  | .seqOpen => Sys2Proof.Machine.execSeqOpen s
  | .seqFeed => Sys2Proof.Machine.execSeqFeed s
  | .seqClose => Sys2Proof.Machine.execSeqClose s
  | .cameraSet => Sys2Proof.Machine.execCameraSet s
  | .audioSet => Sys2Proof.Machine.execAudioSet s
  | .wakeSet => Sys2Proof.Machine.execWakeSet s
  | .prerollGet => Sys2Proof.Machine.execPrerollGet s
  | .powerState => Sys2Proof.Machine.execPowerState s
  | .paceSet => Sys2Proof.Machine.execPaceSet s
  | .batteryBudget => Sys2Proof.Machine.execBatteryBudget s
  | .scan => Sys2Proof.Machine.execScan s
  | .digest => Sys2Proof.Machine.execDigest s
  | .peatProgram => Sys2Proof.Machine.execPeatProgram s
  | .peatErase => Sys2Proof.Machine.execPeatErase s
  | .kinEnrol => Sys2Proof.Machine.execKinEnrol s
  | .entropyGet => Sys2Proof.Machine.execEntropyGet s
  | .dumpGet => Sys2Proof.Machine.execDumpGet s
  | .partitionReset => Sys2Proof.Machine.execPartitionReset s
  | .spareMap => Sys2Proof.Machine.execSpareMap s
  | .deviceReset => Sys2Proof.Machine.execDeviceReset s
  | .deviceResetBegin => Sys2Proof.Machine.execDeviceResetBegin s
  | .transitionItemStart => Sys2Proof.Machine.execTransitionItemStart s
  | .eventPass => Sys2Proof.Machine.execEventPass s
  | .thermalDegradeClear => Sys2Proof.Machine.execThermalDegradeClear s
  | .hardTrip => Sys2Proof.Machine.execHardTrip s
  | .boostEnd => Sys2Proof.Machine.execBoostEnd s
  | .leaseExpire => Sys2Proof.Machine.execLeaseExpire s
  | .freqChangeDrained => Sys2Proof.Machine.execFreqChangeDrained s
  | .journalTailTimer => Sys2Proof.Machine.execJournalTailTimer s
  | .peatPatrol => Sys2Proof.Machine.execPeatPatrol s
  | .tier0FrameDone => Sys2Proof.Machine.execTier0FrameDone s
  | .tier1Halt => Sys2Proof.Machine.execTier1Halt s
  | .tier1LimitExpire => Sys2Proof.Machine.execTier1LimitExpire s
  | .lingerExpire => Sys2Proof.Machine.execLingerExpire s
  | .powerTransitionComplete => Sys2Proof.Machine.execPowerTransitionComplete s
  | .pwrMainsAccept => Sys2Proof.Machine.execPwrMainsAccept s
  | .mainsCountRestart => Sys2Proof.Machine.execMainsCountRestart s
  | .mainsCountComplete => Sys2Proof.Machine.execMainsCountComplete s
  | .mainsStableWake => Sys2Proof.Machine.execMainsStableWake s
  | .pfailAssert => Sys2Proof.Machine.execPfailAssert s
  | .pfailGate => Sys2Proof.Machine.execPfailGate s
  | .pfailRise => Sys2Proof.Machine.execPfailRise s
  | .porstAssert => Sys2Proof.Machine.execPorstAssert s
  | .powerOnTimer => Sys2Proof.Machine.execPowerOnTimer s
  | .vddHubRaise => Sys2Proof.Machine.execVddHubRaise s
  | .hubRelease => Sys2Proof.Machine.execHubRelease s
  | .refclkLoss => Sys2Proof.Machine.execRefclkLoss s
  | .entropyRetry => Sys2Proof.Machine.execEntropyRetry s
  | .healthTestFail => Sys2Proof.Machine.execHealthTestFail s
  | .drbgReseed => Sys2Proof.Machine.execDrbgReseed s
  | .scrubComplete => Sys2Proof.Machine.execScrubComplete s
  | .alwaysOnSupplyLoss => Sys2Proof.Machine.execAlwaysOnSupplyLoss s
  | .refclkReturn => Sys2Proof.Machine.execRefclkReturn s

end Sys2Proof.Machine
end

