-- ==== Sys2Proof/Machine/Tick.lean ====
section
/-! DEFINITION. What the block does while no command waits: its clock runs. -/

namespace Sys2Proof.Machine

/-- One period of REFCLK_25M in ns (R457). -/
def tickNs : Nat := 40

/-- Device time can advance: the always-on domain is out of reset and its clock shows edges (R9, R457). -/
def Device.clockRuns (d : Device) : Bool := d.aon.up && d.aon.refclk

/-- ns of an epoch of the configuration digest (R420). -/
def epochNs : Nat := 1000000000

/-- The device after `n` ns without a command: the residency counter of the power state in force advances (R371). -/
def Device.elapse (d : Device) (n : Nat) : Device :=
  { d with aon := { d.aon with residency := d.aon.residency.modify 0 d.pwr.state.num (· + n) } }

/-- Time passes from `a` to `b`; where an epoch starts between them, the hub takes the digest that it expects of it (R420). -/
def Device.pass (d : Device) (a b : Nat) : Device :=
  if a / epochNs = b / epochNs then d.elapse (b - a) else (d.elapse (b - a)).openEpoch

/-- An idle step: one period of the timebase, if it runs. Device time does not pass 2^64 − 1 (R9). -/
def idle (s : State) : Host.Outcome State Fault Refusal :=
  if s.dev.clockRuns then
    if s.now + tickNs < 2 ^ 64 then .next { s with now := s.now + tickNs, dev := s.dev.pass s.now (s.now + tickNs) }
    else .fault .deviceTimeExhausted
  else .next s

end Sys2Proof.Machine
end

