-- ==== Sys2Proof/Safety.lean ====
section
/-! DEFINITION. The terms in which claims are made: what a safe step is, when a core executes an instruction, the packet a
host command acts on, and what its reply leaves in the reply queue. -/

namespace Sys2Proof

/-- The step answers a next state. -/
def StepSafe (s : Machine.State) : Prop := ∃ t, Machine.step s = .next t

/-- The core and the guard of an instruction of a core; no other command has one. -/
def Instr.coreGuard : Instr → Option (CoreId × Guard)
  | .add c g _ | .sub c g _ | .and_ c g _ | .or_ c g _ | .xor_ c g _ | .shl c g _ | .shr c g _ | .sra c g _
  | .mul c g _ | .mulh c g _ | .min_ c g _ | .max_ c g _ | .ceq c g _ | .cne c g _ | .clt c g _ | .cltu c g _
  | .cge c g _ | .cgeu c g _ | .pand c g _ | .por c g _ | .pnot c g _ | .addi c g _ | .andi c g _ | .ori c g _
  | .xori c g _ | .shli c g _ | .shri c g _ | .srai c g _ | .clti c g _ | .movl c g _ | .movh c g _ | .br c g _
  | .call c g _ | .jr c g _ | .loop c g _ | .ldw c g _ | .ldh c g _ | .ldb c g _ | .stw c g _ | .sth c g _
  | .stb c g _ | .ldv c g _ | .stv c g _ | .ldd c g _ | .std c g _ | .vadd c g _ | .vsub c g _ | .vmul c g _
  | .vmax c g _ | .vmin c g _ | .vabs c g _ | .vneg c g _ | .vand c g _ | .vor c g _ | .vxor c g _
  | .vshl c g _ | .vshr c g _ | .vsra c g _ | .vfma c g _ | .vrecip c g _ | .vrsqrt c g _ | .vexp2 c g _
  | .vredsum c g _ | .vredmax c g _ | .vcvt c g _ | .vbcast c g _ | .vgetl c g _ | .vaccrd c g _
  | .vaccwr c g _ | .mxrun c g _ | .mxwait c g _ | .mxsat c g _ | .mxsatclr c g _ | .send c g _ | .post c g _
  | .mfree c g _ | .mptr c g _ | .ksig c g _ | .kwait c g _ | .kinit c g _ | .karm c g _ | .krd c g _
  | .pmq c g _ | .pmwait c g _ | .kvwalk c g _ | .nop c g _ | .sysrd c g _ | .syswr c g _ | .fence c g _
  | .halt c g _ => some (c, g)
  | _ => none

/-- A reserved field of the instruction's class is set (R55): WD of a load or store of 4 bytes or fewer, and the fields the
class leaves unused. -/
def Instr.reservedSet : Instr → Bool
  | .add _ _ o | .sub _ _ o | .and_ _ _ o | .or_ _ _ o | .xor_ _ _ o | .shl _ _ o | .shr _ _ o | .sra _ _ o
  | .mul _ _ o | .mulh _ _ o | .min_ _ _ o | .max_ _ _ o | .ceq _ _ o | .cne _ _ o | .clt _ _ o | .cltu _ _ o
  | .cge _ _ o | .cgeu _ _ o | .pand _ _ o | .por _ _ o | .pnot _ _ o => o.rsv != 0
  | .movl _ _ o | .movh _ _ o => o.rsv != 0
  | .jr _ _ o => o.rsv != 0
  | .ldw _ _ o | .ldh _ _ o | .ldb _ _ o | .stw _ _ o | .sth _ _ o | .stb _ _ o => o.wd
  | .mxrun _ _ o | .mxwait _ _ o | .mxsat _ _ o | .mxsatclr _ _ o => o.rsv != 0
  | .send _ _ o => o.rsv != 0
  | .post _ _ o => o.rsv != 0
  | .mfree _ _ o | .mptr _ _ o => o.rsv != 0
  | .ksig _ _ o | .kwait _ _ o | .kinit _ _ o | .karm _ _ o | .krd _ _ o => o.rsv != 0
  | .pmq _ _ o | .pmwait _ _ o | .kvwalk _ _ o => o.rsv != 0
  | .nop _ _ o | .sysrd _ _ o | .syswr _ _ o | .fence _ _ o | .halt _ _ o => o.rsv != 0
  | _ => false

/-- The opcode of a host command; no other row has one. -/
def Instr.hostOp : Instr → Option Nat
  | .echo => some 0x00
  | .identify => some 0x01
  | .getStatus => some 0x02
  | .tenantOpen => some 0x04
  | .tenantClose => some 0x05
  | .contextOpen => some 0x06
  | .contextClose => some 0x07
  | .alloc => some 0x10
  | .free => some 0x11
  | .put => some 0x12
  | .get => some 0x13
  | .flush => some 0x14
  | .migrate => some 0x15
  | .weaveLoad => some 0x20
  | .weaveBind => some 0x21
  | .weaveDrop => some 0x22
  | .partitionSet => some 0x23
  | .run => some 0x30
  | .queryDue => some 0x31
  | .cancel => some 0x32
  | .decide => some 0x38
  | .streamOpen => some 0x40
  | .streamStep => some 0x41
  | .streamClose => some 0x42
  | .seqOpen => some 0x48
  | .seqFeed => some 0x49
  | .seqClose => some 0x4A
  | .cameraSet => some 0x50
  | .audioSet => some 0x51
  | .wakeSet => some 0x52
  | .prerollGet => some 0x53
  | .powerState => some 0x60
  | .paceSet => some 0x61
  | .batteryBudget => some 0x62
  | .scan => some 0x68
  | .digest => some 0x69
  | .peatProgram => some 0x70
  | .peatErase => some 0x71
  | .kinEnrol => some 0x78
  | .entropyGet => some 0x79
  | .dumpGet => some 0x7C
  | .partitionReset => some 0x7D
  | .spareMap => some 0x7E
  | .deviceReset => some 0x7F
  | _ => none

namespace Machine

/-- The record of a core. -/
def State.core (s : State) (c : CoreId) : Core := s.dev.core c.toNat

/-- Core `c` executes the instruction it has fetched: it runs, its offset lies in the pool, the guard holds (R48, R50,
R53). -/
def State.executes (s : State) (c : CoreId) (g : Guard) : Prop :=
  (s.core c).active = true ∧ (s.core c).pc < poolBytes ∧ (s.core c).guardOk g = true

/-- `s` with core `c` as `k`: the queue, device time, the other cores and all the rest as in `s`. -/
def State.withCore (s : State) (c : CoreId) (k : Core) : State := { s with dev := s.dev.setCore c.toNat k }

/-- `s` after core `c` has raised a fault of R57 and nothing else. -/
def State.withFault (s : State) (c : CoreId) (code a : Nat) : State :=
  { s with dev := s.dev.coreFault s.now c.toNat code a }

/-- The offset of a core's next instruction. -/
def Core.pcNext (k : Core) : Nat := (k.pc + 4) % 2 ^ 32

/-- The interpreter holds packet `p` of opcode `op`; it came after the last port reset, and a steward leads. -/
def State.holds (s : State) (op : Nat) (p : Packet) : Prop :=
  s.dev.port.interp = some p ∧ p.id.op = op ∧ s.dev.interprets = true ∧ p.epoch = s.dev.port.epoch

/-- `s.holds`, of a command that asks no work, with every such packet before it answered (R210): its reply leaves at once. -/
def State.serves (s : State) (op : Nat) (p : Packet) : Prop :=
  s.holds op p ∧ s.dev.port.order = [⟨p.id, true, none⟩]

/-- The command `id`, admitted before, owes its reply; it came after the last port reset, and every packet before it that
asks no work is answered (R210). -/
def State.owes (s : State) (id : CmdId) : Prop := s.dev.port.order = [⟨id, true, none⟩] ∧ id.epoch = s.dev.port.epoch

/-- `t` is `s` with the command `id` answered: its reply is the last of the reply queue, under the next RSEQ, with completion
time `s.now` (R209, R210), and the tag is free (R203). -/
def State.replied (s t : State) (id : CmdId) (status : Nat) (rs : List Word) : Prop :=
  t.dev.port.replies = s.dev.port.replies ++ [replyWords id status s.now s.dev.port.rseq rs]
    ∧ t.dev.port.rseq = (s.dev.port.rseq + 1) % 2 ^ 32
    ∧ (t.dev.port.tags.get {} (tagKey id.ctx id.tag)).busy = false
    ∧ t.dev.port.order = []

/-- `t` is `s` with packet `p` answered, and the interpreter free. -/
def State.answered (s t : State) (p : Packet) (status : Nat) (rs : List Word) : Prop :=
  s.replied t p.id status rs ∧ t.dev.port.interp = none

/-- `t` is `s` but for the port, and the note that a waiting DEVICE_RESET takes of its reply. -/
def State.portOnly (s t : State) : Prop :=
  t = { s with dev := { s.dev with port := t.dev.port, hub := { s.dev.hub with resetAsk := t.dev.hub.resetAsk } } }

/-- `t` is `s` with `p` answered, and nothing else of the machine changed. -/
def State.onlyAnswered (s t : State) (p : Packet) (status : Nat) (rs : List Word) : Prop :=
  s.answered t p status rs ∧ s.portOnly t

/-- The queue and device time as in `s`. -/
def State.sameClock (s t : State) : Prop := t.pending = s.pending ∧ t.now = s.now

end Machine

end Sys2Proof
end

