-- ==== Sys2Proof/Certificates/Slice0/Obligations.lean ====
section
/-! DEFINITION. The statements for the provers. -/

set_option autoImplicit false

open Sys2Proof Sys2Proof.Machine

/-- With command c at the front of the queue, a step answers what exec answers for c on the state with the rest
of the queue. -/
def Obligations.StepRunsFront : Prop :=
  ∀ (s : State) (c : Instr) (rest : List Instr), s.pending = c :: rest → step s = exec c { s with pending := rest }

/-- On an empty queue (the model's choice, log entry 2) a step advances device time by 40 ns and the residency
counter of the power state in force by as much, while the always-on domain is powered and its clock shows edges;
where an epoch of the configuration digest starts in these 40 ns, the hub takes the digest that it expects of it
(R420, log entry 64). It changes nothing else, and with the clock stopped nothing. -/
def Obligations.IdleStepCountsTime : Prop :=
  ∀ (s : State), s.pending = [] →
    (s.dev.aon.up = true → s.dev.aon.refclk = true → s.now + 40 < 2 ^ 64 →
      ∃ m : SMap Nat, ∃ w : Word,
        step s = .next { s with now := s.now + 40, dev := { s.dev with
            aon := { s.dev.aon with residency := m }, hub := { s.dev.hub with digWant := w } } }
          ∧ (s.now / 1000000000 = (s.now + 40) / 1000000000 → w = s.dev.hub.digWant)
          ∧ (s.now / 1000000000 < (s.now + 40) / 1000000000 →
              w = ({ s.dev with aon := { s.dev.aon with residency := m } } : Device).configDigest)
          ∧ ∀ i, m.get 0 i = s.dev.aon.residency.get 0 i + if i = s.dev.pwr.state.num then 40 else 0)
      ∧ ((s.dev.aon.up = false ∨ s.dev.aon.refclk = false) → step s = .next s)

/-- A step that answers a next state leaves device time where it is or later, unless it ran POWER_ON_TIMER,
which starts it from 0; and it takes at most the front command off the queue. -/
def Obligations.TimeIsMonotonic : Prop :=
  ∀ (s t : State), step s = .next t →
    (s.pending.head? ≠ some .powerOnTimer → s.now ≤ t.now) ∧ t.pending = s.pending.tail

/-- From every state whose device time is below 2^64, a step that answers a next state answers one whose device
time is below 2^64 (the 64 bits of the TIME register; the invariant is the model's own form of "does not wrap").
-/
def Obligations.TimeStaysIn64Bits : Prop :=
  ∀ (s t : State), s.now < 2 ^ 64 → step s = .next t → t.now < 2 ^ 64

/-- At reset device time is 0, below 2^64, and no command waits; the device is OFF with PORST_N low, nothing in
the fault log or the residency counters; no command, reply or event is held, the expected SEQ is 0, LAST_GOOD
0xFFFF_FFFF, no port error, CAUSE 0, every cause masked, CREDIT_THRESH 4,096, and the next reply sequence number
0; every core's general and vector registers, predicates, accumulators and saturation counters are zero, p0
reads true and d0 has BASE 0 and STRIDE0 1; knots count 0; the tenancy is closed with no allocation, weave,
stream or sequence; BATTERY_BUDGET sets no limit; memory settings hold RATE_CAP 00, NR_SHIFT 9, SPARE_POLICY 00
and CE_LIMIT 4,096. -/
def Obligations.ResetState : Prop :=
  let d := State.reset.dev
  State.reset.now < 2 ^ 64 ∧ State.reset.now = 0 ∧ State.reset.pending = []
    ∧ d.pwr.state = .off ∧ d.aon.porstLow = true ∧ d.aon.log = [] ∧ (∀ i, d.aon.residency.get 0 i = 0)
    ∧ d.port.fifo = [] ∧ d.port.replies = [] ∧ d.ev.fifo = [] ∧ d.ev.waiting = [] ∧ d.port.expSeq = 0 ∧ d.port.lastGood = 0xFFFFFFFF
    ∧ d.port.err = none ∧ d.port.cause = 0 ∧ d.port.mask = 0xFF ∧ d.port.creditThresh = 4096 ∧ d.port.rseq = 0
    ∧ (∀ c, let k := d.core c
        (∀ i, k.g.get 0 i = 0) ∧ (∀ i, k.v.get 0 i = 0) ∧ (∀ i, k.acc.get 0 i = 0) ∧ (∀ i, k.sat.get 0 i = 0)
          ∧ (∀ n, k.guardOk ⟨n, false⟩ = decide (n = 0)) ∧ k.d.get 0 0 = 1#128 <<< 48 ∧ ∀ i, 0 < i → k.d.get 0 i = 0)
    ∧ (∀ c i, d.lknot c i = ⟨0, 0⟩) ∧ (∀ i, (d.gknot i).count = 0)
    ∧ d.ten.state = .closed ∧ (∀ i, d.alloc? i = none ∧ d.weave? i = none ∧ d.stream? i = none ∧ (d.seq i).phase = 0)
    ∧ d.pwr.budget = 0xFFFFFFFF
    ∧ d.dram.settings.fld 1 0 = 0 ∧ d.dram.settings.fld 5 2 = 9 ∧ d.dram.settings.fld 7 6 = 0 ∧ d.dram.settings.fld 23 8 = 4096

/-- For every instruction of a core that is halted or stopped by a fault, the state stays as it is. For every
instruction of a core that runs with its program offset at or beyond 0x30_0000, POOL_RANGE is raised with that
offset. For every instruction of a core: where the core runs, its offset lies in the pool and the guard does not
hold, the core goes to its next instruction and nothing else changes, no fault being raised. For every
instruction of a core that executes with a reserved field of its class set (WD of a short load or store, the
unused fields of the other classes), ILLEGAL_INSTR is raised. -/
def Obligations.CoreInstructionGates : Prop :=
  (∀ (s : State) (i : Instr) (c : CoreId) (g : Guard), i.coreGuard = some (c, g) →
    (s.core c).active = false → exec i s = .next s)
    ∧ (∀ (s : State) (i : Instr) (c : CoreId) (g : Guard), i.coreGuard = some (c, g) →
    (s.core c).active = true → poolBytes ≤ (s.core c).pc → exec i s = .next (s.withFault c fcPoolRange (s.core c).pc))
    ∧ (∀ (s : State) (i : Instr) (c : CoreId) (g : Guard), i.coreGuard = some (c, g) →
    (s.core c).active = true → (s.core c).pc < poolBytes → (s.core c).guardOk g = false →
    exec i s = .next (s.withCore c { s.core c with pc := (s.core c).pcNext, run := .running }))
    ∧ (∀ (s : State) (i : Instr) (c : CoreId) (g : Guard), i.coreGuard = some (c, g) → s.executes c g →
    i.reservedSet = true → exec i s = .next (s.withFault c fcIllegal 0))

/-- A core that raises a fault outside any partition and outside Tier 1 is stopped, and the fault log takes a
record of the device time, the fault's code, no partition, the logical core, the program offset and the address
as its newest; nothing else of the core, and no other core, changes. A core of partition p that raises a fault
while no reset of p runs: p then runs a compute reset that began at the fault, PARTITION_FAULT is raised with
the partition, the fault, the core and its program offset, and the reset counts toward p's escalation. -/
def Obligations.CoreFaultResult : Prop :=
  (∀ (s : State) (c : CoreId) (code a : Nat), s.dev.partOf c.toNat = none → s.dev.cas.tier1 = none →
    let t := s.withFault c code a
    t.core c = { s.core c with run := .faulted }
      ∧ (∀ e : CoreId, e ≠ c → t.core e = s.core e)
      ∧ t.dev.aon.log.getLast? =
          some ⟨s.now, code, 0xFF, some c.toNat, (s.dev.aon.logCount + 1) % 2 ^ 32, (s.core c).pc, a⟩
      ∧ t.dev.mem = s.dev.mem ∧ t.dev.ten = s.dev.ten ∧ t.dev.port = s.dev.port ∧ t.dev.parts = s.dev.parts)
    ∧ (∀ (s : State) (c : CoreId) (p code a : Nat), s.dev.partOf c.toNat = some p → (s.dev.part p).reset = none →
    let t := s.withFault c code a
    ((t.dev.part p).reset.map (·.t0)) = some s.now
      ∧ (⟨s.now, 1, 0x0001, mkWord [(p, 0), (code, 16)], mkWord [(c.toNat, 0), ((s.core c).pc, 32)]⟩ : Ev) ∈ t.dev.ev.waiting
      ∧ s.now ∈ (t.dev.part p).resetTimes)

/-- ADD, SUB, AND, OR, XOR, SHL, SHR, SRA, MUL, MULH, MIN and MAX with their reserved field zero write g[DST]
(sums and products modulo 2^32, shifts by the low 5 bits, SRA and MULH and the comparisons signed) and go to the
next instruction; nothing else of the machine changes. ADDI, ANDI, ORI, XORI, SHLI, SHRI and SRAI combine
g[SRCA] with the sign-extended 11-bit immediate (shifts by its low 5 bits); MOVL writes the 16-bit immediate
zero-extended and MOVH writes it to the upper half, keeping the lower; nothing else of the machine changes but
the offset. -/
def Obligations.ScalarResult : Prop :=
  (∀ (s : State) (c : CoreId) (g : Guard) (o : RegOps), s.executes c g → o.rsv = 0 →
    let k := s.core c
    let a : W32 := k.g.get 0 o.a.toNat
    let b : W32 := k.g.get 0 o.b.toNat
    let put (v : W32) : Host.Outcome State Fault Refusal :=
      .next (s.withCore c { k with g := k.g.set 0 o.dst.toNat v, pc := k.pcNext, run := .running })
    exec (.add c g o) s = put (a + b)
      ∧ exec (.sub c g o) s = put (a - b)
      ∧ exec (.and_ c g o) s = put (a &&& b)
      ∧ exec (.or_ c g o) s = put (a ||| b)
      ∧ exec (.xor_ c g o) s = put (a ^^^ b)
      ∧ exec (.shl c g o) s = put (BitVec.ofNat 32 (a.toNat * 2 ^ (b.toNat % 32)))
      ∧ exec (.shr c g o) s = put (BitVec.ofNat 32 (a.toNat / 2 ^ (b.toNat % 32)))
      ∧ exec (.sra c g o) s = put (BitVec.ofInt 32 (a.toInt / 2 ^ (b.toNat % 32)))
      ∧ exec (.mul c g o) s = put (a * b)
      ∧ exec (.mulh c g o) s = put (BitVec.ofInt 32 (a.toInt * b.toInt / 2 ^ 32))
      ∧ exec (.min_ c g o) s = put (BitVec.ofInt 32 (min a.toInt b.toInt))
      ∧ exec (.max_ c g o) s = put (BitVec.ofInt 32 (max a.toInt b.toInt)))
    ∧ (∀ (s : State) (c : CoreId) (g : Guard), s.executes c g →
    let k := s.core c
    let put (r : BitVec 5) (v : W32) : Host.Outcome State Fault Refusal :=
      .next (s.withCore c { k with g := k.g.set 0 r.toNat v, pc := k.pcNext, run := .running })
    (∀ o : ImmOps,
      let a : W32 := k.g.get 0 o.a.toNat
      let b : W32 := BitVec.ofInt 32 o.imm.toInt
      exec (.addi c g o) s = put o.dst (a + b)
        ∧ exec (.andi c g o) s = put o.dst (a &&& b)
        ∧ exec (.ori c g o) s = put o.dst (a ||| b)
        ∧ exec (.xori c g o) s = put o.dst (a ^^^ b)
        ∧ exec (.shli c g o) s = put o.dst (BitVec.ofNat 32 (a.toNat * 2 ^ (b.toNat % 32)))
        ∧ exec (.shri c g o) s = put o.dst (BitVec.ofNat 32 (a.toNat / 2 ^ (b.toNat % 32)))
        ∧ exec (.srai c g o) s = put o.dst (BitVec.ofInt 32 (a.toInt / 2 ^ (b.toNat % 32))))
      ∧ ∀ o : WideOps, o.rsv = 0 →
          let a : W32 := k.g.get 0 o.dst.toNat
          exec (.movl c g o) s = put o.dst (BitVec.ofNat 32 o.imm.toNat)
            ∧ exec (.movh c g o) s = put o.dst (BitVec.ofNat 32 (o.imm.toNat * 2 ^ 16 + a.toNat % 2 ^ 16)))

/-- CEQ, CNE, CLT, CLTU, CGE, CGEU, CLTI, PAND, POR and PNOT, their register fields naming predicates and their
reserved field zero, write p[DST] from the operands, a write to p0 being ignored and p0 reading true; nothing
else of the machine changes but the offset. -/
def Obligations.PredicateResult : Prop :=
  ∀ (s : State) (c : CoreId) (g : Guard), s.executes c g →
    let k := s.core c
    let pr (i : BitVec 5) : Bool := i == 0 || k.p.get false i.toNat
    let put (i : BitVec 5) (v : Bool) : Host.Outcome State Fault Refusal :=
      .next (s.withCore c { k with
        p := if i = 0 then k.p else k.p.set false i.toNat v, pc := k.pcNext, run := .running })
    (∀ o : RegOps, o.rsv = 0 → o.dst.toNat < 8 →
      let a : W32 := k.g.get 0 o.a.toNat
      let b : W32 := k.g.get 0 o.b.toNat
      exec (.ceq c g o) s = put o.dst (decide (a = b))
        ∧ exec (.cne c g o) s = put o.dst (decide (a ≠ b))
        ∧ exec (.clt c g o) s = put o.dst (decide (a.toInt < b.toInt))
        ∧ exec (.cltu c g o) s = put o.dst (decide (a.toNat < b.toNat))
        ∧ exec (.cge c g o) s = put o.dst (decide (b.toInt ≤ a.toInt))
        ∧ exec (.cgeu c g o) s = put o.dst (decide (b.toNat ≤ a.toNat))
        ∧ (o.a.toNat < 8 → exec (.pnot c g o) s = put o.dst (!pr o.a))
        ∧ (o.a.toNat < 8 → o.b.toNat < 8 →
            exec (.pand c g o) s = put o.dst (pr o.a && pr o.b) ∧ exec (.por c g o) s = put o.dst (pr o.a || pr o.b)))
      ∧ ∀ o : ImmOps, o.dst.toNat < 8 →
          exec (.clti c g o) s = put o.dst (decide ((k.g.get 0 o.a.toNat : W32).toInt < o.imm.toInt))

/-- BR goes to the branch's own offset plus 4 times the signed offset, CALL does so and writes the return offset
to g31, JR goes to g[target] or raises ALIGN_FAULT where that is misaligned, LOOP decrements its counter and
branches while the result is not zero; nothing else of the machine changes. An offset below zero is carried
modulo 2^32, where the fetch raises POOL_RANGE (the model's choice, log entry 12). -/
def Obligations.BranchResult : Prop :=
  ∀ (s : State) (c : CoreId) (g : Guard), s.executes c g →
    let k := s.core c
    let target (off : Int) : Nat := ((k.pc + 4 * off) % 2 ^ 32).toNat
    let go (k : Core) (pc : Nat) : Host.Outcome State Fault Refusal :=
      .next (s.withCore c { k with pc := pc, run := .running })
    (∀ off : BitVec 22,
      exec (.br c g off) s = go k (target off.toInt)
        ∧ exec (.call c g off) s = go { k with g := k.g.set 0 31 (BitVec.ofNat 32 (k.pc + 4)) } (target off.toInt))
      ∧ (∀ o : JrOps, o.rsv = 0 →
          let t := (k.g.get 0 o.g.toNat).toNat
          exec (.jr c g o) s = if t % 4 = 0 then go k t else .next (s.withFault c fcAlign t))
      ∧ ∀ o : LoopOps,
          let v : W32 := k.g.get 0 o.g.toNat - 1
          exec (.loop c g o) s =
            go { k with g := k.g.set 0 o.g.toNat v } (if v = 0 then k.pcNext else target o.off.toInt)

/-- LDW, LDH, LDB, LDV and LDD, their reserved fields zero, whose element (R49, R50) lies in the own pool at a
properly aligned offset a (4, 2, 1, 64 and 16 bytes): the register receives the bytes from a on, the byte at a
lowest (LDH and LDB sign-extended), g[GI] is incremented under POST unless it is the load's destination, and the
core goes on; memory, pool and everything else stay. -/
def Obligations.PoolLoadResult : Prop :=
  ∀ (s : State) (c : CoreId) (g : Guard) (a : Nat), s.executes c g →
    let k := s.core c
    let byte (i : Nat) : Byte := k.pool.get 0 (a + i)
    let at_ (desc : BitVec 4) (gi gj : BitVec 5) (n : Nat) : Prop :=
      element (k.d.get 0 desc.toNat) (k.g.get 0 gi.toNat : W32).toNat (k.g.get 0 gj.toNat : W32).toNat n = some a
    let inc (post : Bool) (gi : BitVec 5) : SMap W32 := if post then k.g.set 0 gi.toNat (k.g.get 0 gi.toNat + 1) else k.g
    let put (g : SMap W32) (v : SMap (BitVec 2048)) (d : SMap (BitVec 128)) : Host.Outcome State Fault Refusal :=
      .next (s.withCore c { k with g := g, v := v, d := d, pc := k.pcNext, run := .running })
    (∀ o : PoolOps, o.wd = false →
      let ld (v : W32) : Host.Outcome State Fault Refusal := put ((inc o.post o.gi).set 0 o.reg.toNat v) k.v k.d
      (at_ o.desc o.gi o.gj 4 → a % 4 = 0 → exec (.ldw c g o) s = ld (byte 3 ++ byte 2 ++ byte 1 ++ byte 0))
        ∧ (at_ o.desc o.gi o.gj 2 → a % 2 = 0 → exec (.ldh c g o) s = ld ((byte 1 ++ byte 0).signExtend 32))
        ∧ (at_ o.desc o.gi o.gj 1 → exec (.ldb c g o) s = ld ((byte 0).signExtend 32)))
      ∧ ∀ o : WidePoolOps,
          (at_ o.desc o.gi o.gj 256 → a % 64 = 0 →
            ∃ x : BitVec 2048, exec (.ldv c g o) s = put (inc o.post o.gi) (k.v.set 0 o.reg.toNat x) k.d
              ∧ ∀ i < 256, x.extractLsb' (8 * i) 8 = byte i)
            ∧ (at_ o.desc o.gi o.gj 16 → a % 16 = 0 → o.reg.toNat < 16 →
                ∃ x : BitVec 128, exec (.ldd c g o) s = put (inc o.post o.gi) k.v (k.d.set 0 o.reg.toNat x)
                  ∧ ∀ i < 16, x.extractLsb' (8 * i) 8 = byte i)

/-- STW, STH, STB, STV and STD, their reserved fields zero, whose element lies in the own pool at a properly
aligned offset a: the pool holds the register's low bytes from a on, every other pool byte reads as before,
g[GI] is incremented under POST, and the core goes on; nothing else of the machine changes. -/
def Obligations.PoolStoreResult : Prop :=
  ∀ (s : State) (c : CoreId) (g : Guard) (a : Nat), s.executes c g →
    let k := s.core c
    let at_ (desc : BitVec 4) (gi gj : BitVec 5) (n : Nat) : Prop :=
      element (k.d.get 0 desc.toNat) (k.g.get 0 gi.toNat : W32).toNat (k.g.get 0 gj.toNat : W32).toNat n = some a
    let inc (post : Bool) (gi : BitVec 5) : SMap W32 := if post then k.g.set 0 gi.toNat (k.g.get 0 gi.toNat + 1) else k.g
    let stored (out : Host.Outcome State Fault Refusal) (post : Bool) (gi : BitVec 5) (n x : Nat) : Prop :=
      ∃ m : SMap Byte, out = .next (s.withCore c { k with pool := m, g := inc post gi, pc := k.pcNext, run := .running })
        ∧ ∀ b, m.get 0 b = if a ≤ b ∧ b < a + n then BitVec.ofNat 8 (x / 256 ^ (b - a)) else k.pool.get 0 b
    (∀ o : PoolOps, o.wd = false →
      let x := (k.g.get 0 o.reg.toNat : W32).toNat
      (at_ o.desc o.gi o.gj 4 → a % 4 = 0 → stored (exec (.stw c g o) s) o.post o.gi 4 x)
        ∧ (at_ o.desc o.gi o.gj 2 → a % 2 = 0 → stored (exec (.sth c g o) s) o.post o.gi 2 x)
        ∧ (at_ o.desc o.gi o.gj 1 → stored (exec (.stb c g o) s) o.post o.gi 1 x))
      ∧ ∀ o : WidePoolOps,
          (at_ o.desc o.gi o.gj 256 → a % 64 = 0 →
            stored (exec (.stv c g o) s) o.post o.gi 256 (k.v.get 0 o.reg.toNat : BitVec 2048).toNat)
            ∧ (at_ o.desc o.gi o.gj 16 → a % 16 = 0 → o.reg.toNat < 16 →
                stored (exec (.std c g o) s) o.post o.gi 16 (k.d.get 0 o.reg.toNat : BitVec 128).toNat)

/-- For the four-byte, two-byte, one-byte, vector and descriptor accesses, with reserved fields zero: an element
that R49 and R50 admit nowhere raises POOL_RANGE (with the computed address, the model's choice, log entry 13)
and one at a misaligned offset raises ALIGN_FAULT with that offset; nothing is loaded or stored. An index at or
beyond a non-zero count, an address space other than the own pool, and bytes outside the pool are all admitted
nowhere. -/
def Obligations.PoolAccessFaults : Prop :=
  ∀ (s : State) (c : CoreId) (g : Guard), s.executes c g →
    let k := s.core c
    let i (r : BitVec 5) : Nat := (k.g.get 0 r.toNat : W32).toNat
    let x (desc : BitVec 4) : BitVec 128 := k.d.get 0 desc.toNat
    let faults (out : Host.Outcome State Fault Refusal) (desc : BitVec 4) (gi gj : BitVec 5) (n al : Nat) : Prop :=
      (element (x desc) (i gi) (i gj) n = none →
        out = .next (s.withFault c fcPoolRange (elementLog (x desc) (i gi) (i gj))))
        ∧ ∀ a, element (x desc) (i gi) (i gj) n = some a → a % al ≠ 0 → out = .next (s.withFault c fcAlign a)
    (∀ o : PoolOps, o.wd = false →
      faults (exec (.ldw c g o) s) o.desc o.gi o.gj 4 4 ∧ faults (exec (.stw c g o) s) o.desc o.gi o.gj 4 4
        ∧ faults (exec (.ldh c g o) s) o.desc o.gi o.gj 2 2 ∧ faults (exec (.sth c g o) s) o.desc o.gi o.gj 2 2
        ∧ faults (exec (.ldb c g o) s) o.desc o.gi o.gj 1 1 ∧ faults (exec (.stb c g o) s) o.desc o.gi o.gj 1 1)
      ∧ (∀ o : WidePoolOps,
          faults (exec (.ldv c g o) s) o.desc o.gi o.gj 256 64 ∧ faults (exec (.stv c g o) s) o.desc o.gi o.gj 256 64
            ∧ (o.reg.toNat < 16 → faults (exec (.ldd c g o) s) o.desc o.gi o.gj 16 16
                ∧ faults (exec (.std c g o) s) o.desc o.gi o.gj 16 16))
      ∧ (∀ y i j n, descCount0 y ≠ 0 → descCount0 y ≤ i → element y i j n = none)
      ∧ (∀ y i j n, descCount1 y ≠ 0 → descCount1 y ≤ j → element y i j n = none)
      ∧ ∀ y i j n a, element y i j n = some a →
          (a : Int) = descBase y + i * descStride0 y + j * descStride1 y ∧ a + n ≤ 0x300000 ∧ descBase y < 2 ^ 46

/-- VADD, VSUB, VMUL, VMAX, VMIN, VSHL, VSHR, VSRA, VABS, VNEG and, in the float formats, VFMA, VRECIP, VRSQRT
and VEXP2, in a lane format of R55: lane i of vd becomes the operation's value on lane i of its operands
wherever the spec states that value (a lane without one holds a free value, and a zero whose sign it leaves open
is either zero, log entries 14 and 94), and nothing else of the machine changes but the offset and the count of
free values. VAND, VOR and VXOR in any lane format of R55 write the bitwise combination of the two whole vectors
to vd and go on; nothing else of the machine changes. In the 32- and 16-bit integer formats, lane i of the
result of VADD, VSUB and VMUL, read as a signed number, is the exact sum, difference and product of lanes i of
the operands wherever the lane can hold it. -/
def Obligations.VectorElementResult : Prop :=
  (∀ (s : State) (c : CoreId) (g : Guard) (o : VecOps) (l : Lane), s.executes c g → laneOf o.lfmt.toNat = some l →
    let k := s.core c
    let wrote (out : Host.Outcome State Fault Refusal) (l : Lane) (val : Nat → LaneOut) : Prop :=
      ∃ (x : BitVec 2048) (n : Nat), n ≤ 1
        ∧ out = .next { s.withCore c { k with v := k.v.set 0 o.vd.toNat x, pc := k.pcNext, run := .running } with
            dev := { (s.withCore c { k with v := k.v.set 0 o.vd.toNat x, pc := k.pcNext, run := .running }).dev with
              freeCount := s.dev.freeCount + n } }
        ∧ ∀ i < l.count, match val i with
          | .val v => (x.extractLsb' (l.bits * i) l.bits).toNat = v % 2 ^ l.bits
          | .zero => (x.extractLsb' (l.bits * i) l.bits).toNat = 0 ∨ (x.extractLsb' (l.bits * i) l.bits).toNat = 2 ^ (l.bits - 1)
          | .open_ => True
    let ln (l : Lane) (r : BitVec 5) (i : Nat) : Nat := ((k.v.get 0 r.toNat : BitVec 2048).extractLsb' (l.bits * i) l.bits).toNat
    let va := ln l o.va
    let vb := ln l o.vb
    wrote (exec (.vadd c g o) s) l (fun i => laneArith l (· + ·) FVal.add (va i) (vb i))
      ∧ wrote (exec (.vsub c g o) s) l (fun i => laneArith l (· - ·) (fun a b => a.add b.neg) (va i) (vb i))
      ∧ wrote (exec (.vmul c g o) s) l (fun i => laneArith l (· * ·) FVal.mul (va i) (vb i))
      ∧ wrote (exec (.vmax c g o) s) l (fun i => laneMax true l (va i) (vb i))
      ∧ wrote (exec (.vmin c g o) s) l (fun i => laneMax false l (va i) (vb i))
      ∧ wrote (exec (.vshl c g o) s) l (fun i => if vb i < l.bits then .val (va i * 2 ^ vb i) else .open_)
      ∧ wrote (exec (.vshr c g o) s) l (fun i => if vb i < l.bits then .val (va i / 2 ^ vb i) else .open_)
      ∧ wrote (exec (.vsra c g o) s) l (fun i => laneShift l (laneSra l) (va i) (vb i))
      ∧ wrote (exec (.vabs c g o) s) l (fun i => laneArith l (fun x _ => (x.natAbs : Int)) (fun x _ => x.abs) (va i) 0)
      ∧ wrote (exec (.vneg c g o) s) l (fun i => laneArith l (fun x _ => -x) (fun x _ => x.neg) (va i) 0)
      ∧ ∀ f, l.flt = some f →
          wrote (exec (.vfma c g o) s) l (fun i =>
              .val (fltLane f ((f.decode (ln l o.vd i)).add ((f.decode (va i)).mul (f.decode (vb i))))))
            ∧ wrote (exec (.vrecip c g o) s) l (fun i => laneFn Fmt.recip l (va i))
            ∧ wrote (exec (.vrsqrt c g o) s) l (fun i => laneFn Fmt.rsqrt l (va i))
            ∧ wrote (exec (.vexp2 c g o) s) l (fun i => laneFn Fmt.exp2 l (va i)))
    ∧ (∀ (s : State) (c : CoreId) (g : Guard) (o : VecOps) (l : Lane), s.executes c g → laneOf o.lfmt.toNat = some l →
    let k := s.core c
    let a : BitVec 2048 := k.v.get 0 o.va.toNat
    let b : BitVec 2048 := k.v.get 0 o.vb.toNat
    let put (x : BitVec 2048) : Host.Outcome State Fault Refusal :=
      .next (s.withCore c { k with v := k.v.set 0 o.vd.toNat x, pc := k.pcNext, run := .running })
    exec (.vand c g o) s = put (a &&& b) ∧ exec (.vor c g o) s = put (a ||| b) ∧ exec (.vxor c g o) s = put (a ^^^ b))
    ∧ (∀ (s : State) (c : CoreId) (g : Guard) (o : VecOps) (l : Lane), s.executes c g → laneOf o.lfmt.toNat = some l → l.flt = none →
    let k := s.core c
    let ln (v : BitVec 2048) (i : Nat) : Int := (v.extractLsb' (l.bits * i) l.bits).toInt
    let va : BitVec 2048 := k.v.get 0 o.va.toNat
    let vb : BitVec 2048 := k.v.get 0 o.vb.toNat
    let isExact (out : Host.Outcome State Fault Refusal) (f : Int → Int → Int) : Prop :=
      ∃ t, out = .next t ∧ ∀ i < l.count, ∀ r : Int, r = f (ln va i) (ln vb i) →
        -(2 ^ (l.bits - 1)) ≤ r → r < 2 ^ (l.bits - 1) → ln ((t.core c).v.get 0 o.vd.toNat) i = r
    isExact (exec (.vadd c g o) s) (· + ·) ∧ isExact (exec (.vsub c g o) s) (· - ·) ∧ isExact (exec (.vmul c g o) s) (· * ·))

/-- VREDSUM and VREDMAX put the pairwise tree over the lanes of va into lane 0 of vd and zero into the others;
VCVT puts the converted lane i of va into lane i of the format that VB names, as far as both have lanes (the
rest are free values, log entry 14); VBCAST puts g[VA] into every lane, a 16-bit lane taking its low half; VGETL
puts lane g[VB] of va into g[VD] (the upper half of a 16-bit lane's g[VD] is a free value, log entry 14).
Nothing else of the machine changes but the offset and the count of free values. -/
def Obligations.VectorReduceAndMove : Prop :=
  ∀ (s : State) (c : CoreId) (g : Guard) (o : VecOps) (l : Lane), s.executes c g → laneOf o.lfmt.toNat = some l →
    let k := s.core c
    let wrote (out : Host.Outcome State Fault Refusal) (l : Lane) (val : Nat → LaneOut) : Prop :=
      ∃ (x : BitVec 2048) (n : Nat), n ≤ 1
        ∧ out = .next { s.withCore c { k with v := k.v.set 0 o.vd.toNat x, pc := k.pcNext, run := .running } with
            dev := { (s.withCore c { k with v := k.v.set 0 o.vd.toNat x, pc := k.pcNext, run := .running }).dev with
              freeCount := s.dev.freeCount + n } }
        ∧ ∀ i < l.count, match val i with
          | .val v => (x.extractLsb' (l.bits * i) l.bits).toNat = v % 2 ^ l.bits
          | .zero => (x.extractLsb' (l.bits * i) l.bits).toNat = 0 ∨ (x.extractLsb' (l.bits * i) l.bits).toNat = 2 ^ (l.bits - 1)
          | .open_ => True
    let ln (l : Lane) (r : BitVec 5) (i : Nat) : Nat := ((k.v.get 0 r.toNat : BitVec 2048).extractLsb' (l.bits * i) l.bits).toNat
    let tree (f : Nat → Nat → LaneOut) : LaneOut := reduceTree l f 7 ((List.range l.count).map fun i => .val (ln l o.va i))
    wrote (exec (.vredsum c g o) s) l (fun i => if i = 0 then tree (laneArith l (· + ·) FVal.add) else .val 0)
      ∧ wrote (exec (.vredmax c g o) s) l (fun i => if i = 0 then tree (laneMax true l) else .val 0)
      ∧ (∀ t, laneOf (o.vb.toNat % 8) = some t →
          wrote (exec (.vcvt c g o) s) t (fun i => if i < l.count then .val (convertLane l t (ln l o.va i)) else .open_))
      ∧ wrote (exec (.vbcast c g o) s) l (fun _ => .val (k.g.get 0 o.va.toNat : W32).toNat)
      ∧ let i := (k.g.get 0 o.vb.toNat : W32).toNat
        i < l.count → ∃ (x : W32) (n : Nat), n ≤ 1
          ∧ exec (.vgetl c g o) s = .next { s.withCore c { k with g := k.g.set 0 o.vd.toNat x, pc := k.pcNext, run := .running } with
              dev := { (s.withCore c { k with g := k.g.set 0 o.vd.toNat x, pc := k.pcNext, run := .running }).dev with
                freeCount := s.dev.freeCount + n } }
          ∧ x.toNat % 2 ^ l.bits = ln l o.va i

/-- With no MXRUN running or queued and g[VA] at most 4,095: VACCRD puts column i of row g[VA] into lane i of
vd, VACCWR puts lane i of vd into column i of that row and leaves every other accumulator as it was; with a row
above 4,095 both raise ACC_RANGE, and with an MXRUN running or queued both stall. -/
def Obligations.AccumulatorMoveResult : Prop :=
  ∀ (s : State) (c : CoreId) (g : Guard) (o : VecOps), s.executes c g → o.lfmt = 0 →
    let k := s.core c
    let r := (k.g.get 0 o.va.toNat : W32).toNat
    let vd : BitVec 2048 := k.v.get 0 o.vd.toNat
    (k.mx = [] → r ≤ 4095 →
      (∃ x : BitVec 2048, exec (.vaccrd c g o) s =
            .next (s.withCore c { k with v := k.v.set 0 o.vd.toNat x, pc := k.pcNext, run := .running })
          ∧ ∀ i < 64, x.extractLsb' (32 * i) 32 = k.acc.get 0 (64 * r + i))
        ∧ ∃ m : SMap W32, exec (.vaccwr c g o) s = .next (s.withCore c { k with acc := m, pc := k.pcNext, run := .running })
          ∧ ∀ j, m.get 0 j = if 64 * r ≤ j ∧ j < 64 * r + 64 then vd.extractLsb' (32 * (j - 64 * r)) 32 else k.acc.get 0 j)
      ∧ (k.mx = [] → 4095 < r → exec (.vaccrd c g o) s = .next (s.withFault c fcAccRange 0)
          ∧ exec (.vaccwr c g o) s = .next (s.withFault c fcAccRange 0))
      ∧ (k.mx ≠ [] → exec (.vaccrd c g o) s = .next (s.withCore c { k with run := .waitMx })
          ∧ exec (.vaccwr c g o) s = .next (s.withCore c { k with run := .waitMx }))

/-- MXRUN, with reserved fields zero and an even pair: with fewer than two MXRUNs in the array a descriptor that
breaks no rule of R63 enters the array with its geometry (d[DPAIR + 2]) and no iteration done, one that breaks a
rule raises DESC_INVALID, and with two there the core stalls. MXWAIT goes on when the array is empty and stalls
otherwise. MXSAT and MXSATCLR, with a counter number of at most 15 and the array empty, read the counter into
g[G] and clear it together with its threshold mark; they stall while the array is not empty, and a number above
15 raises ILLEGAL_INSTR. Nothing else of the machine changes. -/
def Obligations.ArrayInstructionResult : Prop :=
  ∀ (s : State) (c : CoreId) (g : Guard) (o : MatOps), s.executes c g → o.rsv = 0 →
    let k := s.core c
    let dp := o.dpair.toNat
    let d (i : Nat) : BitVec 128 := k.d.get 0 i
    let goOn (k : Core) : Host.Outcome State Fault Refusal :=
      .next (s.withCore c { k with pc := k.pcNext, run := .running })
    let waits : Host.Outcome State Fault Refusal := .next (s.withCore c { k with run := .waitMx })
    let n := (k.g.get 0 o.g.toNat : W32).toNat
    (dp % 2 = 0 → k.mx.length < 2 →
      let geom : BitVec 128 := if dp ≤ 12 then d (dp + 2) else 0
      exec (.mxrun c g o) s =
        if tileOk (readTile (d dp) (d (dp + 1))) (readGeo geom) dp then
          goOn { k with mx := k.mx ++ [⟨d dp, d (dp + 1), geom, 0⟩] }
        else .next (s.withFault c fcDesc 0))
      ∧ (dp % 2 = 0 → 2 ≤ k.mx.length → exec (.mxrun c g o) s = waits)
      ∧ (dp % 2 = 1 → exec (.mxrun c g o) s = .next (s.withFault c fcIllegal 0))
      ∧ exec (.mxwait c g o) s = (if k.mx = [] then goOn k else waits)
      ∧ (n ≤ 15 → k.mx = [] →
          exec (.mxsat c g o) s = goOn { k with g := k.g.set 0 o.g.toNat (k.sat.get 0 n) }
            ∧ exec (.mxsatclr c g o) s = goOn { k with sat := k.sat.set 0 n 0, satFired := k.satFired.set false n false })
      ∧ (n ≤ 15 → k.mx ≠ [] → exec (.mxsat c g o) s = waits ∧ exec (.mxsatclr c g o) s = waits)
      ∧ (15 < n → exec (.mxsat c g o) s = .next (s.withFault c fcIllegal 0)
          ∧ exec (.mxsatclr c g o) s = .next (s.withFault c fcIllegal 0))

/-- In every state in which core c has an MXRUN running. MXRUN_ITERATION_DONE, with iterations left, answers the
next state in which the next iteration (R61) has been applied: the pool and the accumulators are those that the
iteration leaves, the counts of the iteration are added to the descriptor's saturation counter, which stops at
2^32 - 1, the MXRUN has one more iteration done, and the rest of the core, the other cores, memory and the port
stay. MXRUN_COMPLETE, with every iteration done, answers the next state in which the MXRUN has left the array:
without a done knot nothing else of the core, of another core, of memory or of the port changes; with one, a
core outside any partition then signals that knot of its own (R61), whose count rises by 1. With all iterations
done MXRUN_ITERATION_DONE changes nothing, and with some left MXRUN_COMPLETE changes nothing. -/
def Obligations.ArrayEventResult : Prop :=
  ∀ (s : State) (c : CoreId) (j : MxJob) (r : List MxJob), (s.core c).mx = j :: r →
    let k := s.core c
    let x := readTile j.lo j.hi
    let it := iterate k x (readGeo j.geom) j.iter
    (j.iter < x.l → ∃ t, exec (.mxrunIterationDone c) s = .next t ∧ s.sameClock t
        ∧ (t.core c).mx = { j with iter := j.iter + 1 } :: r
        ∧ (t.core c).pool = it.1.pool ∧ (t.core c).acc = it.1.acc
        ∧ ((t.core c).sat.get 0 x.satsel).toNat = min ((k.sat.get 0 x.satsel : W32).toNat + it.2) (2 ^ 32 - 1)
        ∧ (∀ n, n ≠ x.satsel → (t.core c).sat.get 0 n = k.sat.get 0 n)
        ∧ (t.core c).g = k.g ∧ (t.core c).v = k.v ∧ (t.core c).p = k.p ∧ (t.core c).d = k.d
        ∧ (t.core c).pc = k.pc ∧ (t.core c).run = k.run ∧ (t.core c).mover = k.mover
        ∧ (∀ e : CoreId, e ≠ c → t.core e = s.core e)
        ∧ t.dev.mem = s.dev.mem ∧ t.dev.port = s.dev.port ∧ t.dev.parts = s.dev.parts)
      ∧ (x.l ≤ j.iter → x.doneEn = false →
          ∃ t, exec (.mxrunComplete c) s = .next t ∧ s.sameClock t ∧ (t.core c) = { k with mx := r }
            ∧ (∀ e : CoreId, e ≠ c → t.core e = s.core e) ∧ t.dev.mem = s.dev.mem ∧ t.dev.port = s.dev.port)
      ∧ (x.l ≤ j.iter → x.doneEn = true → s.dev.partOf c.toNat = none →
          exec (.mxrunComplete c) s =
              .next { s with dev := (s.dev.setCore c.toNat { k with mx := r }).signalOwn s.now c.toNat x.doneKnot }
            ∧ ((s.dev.lknot c.toNat x.doneKnot).gen < 2 ^ 16 → (s.dev.lknot c.toNat x.doneKnot).count + 1 < 2 ^ 32 →
                ∃ t, exec (.mxrunComplete c) s = .next t ∧ s.sameClock t
                  ∧ (t.dev.lknot c.toNat x.doneKnot).count = (s.dev.lknot c.toNat x.doneKnot).count + 1
                  ∧ t.dev.mem = s.dev.mem ∧ t.dev.port = s.dev.port))
      ∧ (x.l ≤ j.iter → exec (.mxrunIterationDone c) s = .next s)
      ∧ (j.iter < x.l → exec (.mxrunComplete c) s = .next s)

/-- KSIG on a legal name, and KARM on a legal global name, post an operation of the core with the name and
g[gVAL] after those on their way, and the core goes on; an illegal name, or KARM on a local knot, raises
ILLEGAL_INSTR. KNOT_OP_APPLY of the first operation on its way, a signal whose generation is the knot's and
whose local knot's count stays below 2^32, takes it off and adds its value to the count, and releases every core
that waits at a KWAIT for a count now reached, its p[PRED] set and going on; one whose generation is stale is
taken off and counted, no count changing. On a legal name: KWAIT with the knot's count at or above g[gVAL] sets
p[PRED] and goes on, with a lower count it waits for it there; KRD, with no operation of the core to that knot
on its way, reads the count into g[gVAL]; KINIT on the core's own local knot, with none on its way, sets its
count to g[gVAL], advances its generation modulo 2^16 and writes the new name to g[gNAME]. A generation that is
not the knot's makes KWAIT clear p[PRED] and KRD read 0xFFFF_FFFF, the stale count of the knot's core rising by
1 (for a local knot). -/
def Obligations.KnotResult : Prop :=
  ((∀ (s : State) (c : CoreId) (g : Guard) (o : KnotOps), s.executes c g → o.rsv = 0 →
    let k := s.core c
    let n : W32 := k.g.get 0 o.name.toNat
    let v := (k.g.get 0 o.val.toNat : W32).toNat
    let posted (arm : Bool) : Host.Outcome State Fault Refusal :=
      let t := s.withCore c { k with pc := k.pcNext, run := .running }
      .next { t with dev := { t.dev with fab := { t.dev.fab with knotOps := s.dev.fab.knotOps ++ [⟨c.toNat, n, v, arm⟩] } } }
    (s.dev.nameOk c.toNat n = true → exec (.ksig c g o) s = posted false)
      ∧ (s.dev.nameOk c.toNat n = true → nmGlobal n = true → exec (.karm c g o) s = posted true)
      ∧ (s.dev.nameOk c.toNat n = false → exec (.ksig c g o) s = .next (s.withFault c fcIllegal 0))
      ∧ (s.dev.nameOk c.toNat n = false ∨ nmGlobal n = false → exec (.karm c g o) s = .next (s.withFault c fcIllegal 0)))
    ∧ ∀ (s : State) (o : KnotOp) (r : List KnotOp), s.dev.fab.knotOps = o :: r → o.arm = false →
        (nmGlobal o.name = false → ∀ v, s.dev.liveCount o.name = some v → v + o.val < 2 ^ 32 →
          ∃ t, exec (.knotOpApply 0) s = .next t ∧ s.sameClock t ∧ t.dev.fab.knotOps = r
            ∧ (t.dev.lknot (nmCore o.name) (nmKnot o.name)).count = v + o.val
            ∧ (∀ e i, 64 * e + i ≠ 64 * nmCore o.name + nmKnot o.name → t.dev.lknot e i = s.dev.lknot e i)
            ∧ t.dev.fab.cores = s.dev.fab.cores.mapV Core.init t.dev.woken
            ∧ (∀ (k : Core) (n : W32) (target : Nat) (pred : BitVec 3) (m : Nat), k.run = .waitKnot n target pred →
                t.dev.liveCount n = some m → t.dev.woken k = if target ≤ m then
                  { k with p := if pred = 0 then k.p else k.p.set false pred.toNat true, pc := k.pcNext, run := .running } else k)
            ∧ t.dev.mem = s.dev.mem ∧ t.dev.port = s.dev.port)
          ∧ (s.dev.liveCount o.name = none →
              ∃ t, exec (.knotOpApply 0) s = .next t ∧ s.sameClock t ∧ t.dev.fab.knotOps = r
                ∧ t.dev.fab.lknots = s.dev.fab.lknots ∧ t.dev.fab.gknots = s.dev.fab.gknots ∧ t.dev.mem = s.dev.mem))
    ∧ (∀ (s : State) (c : CoreId) (g : Guard) (o : KnotOps), s.executes c g → o.rsv = 0 →
    let k := s.core c
    let n : W32 := k.g.get 0 o.name.toNat
    let v : W32 := k.g.get 0 o.val.toNat
    let pred (b : Bool) : SMap Bool := if o.pred = 0 then k.p else k.p.set false o.pred.toNat b
    s.dev.nameOk c.toNat n = true →
    (∀ m, s.dev.liveCount n = some m →
      exec (.kwait c g o) s = .next (s.withCore c
          (if v.toNat ≤ m then { k with p := pred true, pc := k.pcNext, run := .running } else { k with run := .waitKnot n v.toNat o.pred }))
        ∧ (s.dev.postedTo c.toNat n = false →
            exec (.krd c g o) s =
              .next (s.withCore c { k with g := k.g.set 0 o.val.toNat (BitVec.ofNat 32 m), pc := k.pcNext, run := .running })
            ∧ (nmGlobal n = false → nmCore n = c.toNat →
                ∃ t, exec (.kinit c g o) s = .next t ∧ s.sameClock t
                  ∧ t.dev.lknot c.toNat (nmKnot n) = ⟨v.toNat, (nmGen n + 1) % 2 ^ 16⟩
                  ∧ t.core c = { k with
                      g := k.g.set 0 o.name.toNat (BitVec.ofNat 32 (n.toNat / 2 ^ 16 * 2 ^ 16 + (nmGen n + 1) % 2 ^ 16))
                      pc := k.pcNext, run := .running }
                  ∧ (∀ e i, 64 * e + i ≠ 64 * c.toNat + nmKnot n → t.dev.lknot e i = s.dev.lknot e i)
                  ∧ t.dev.mem = s.dev.mem ∧ t.dev.port = s.dev.port)))
      ∧ (s.dev.liveCount n = none → nmGlobal n = false → nmCore n ≠ c.toNat →
          (∃ t, exec (.kwait c g o) s = .next t ∧ s.sameClock t
            ∧ t.core c = { k with p := pred false, pc := k.pcNext, run := .running }
            ∧ (t.dev.core (nmCore n)).staleKnot = ((s.dev.core (nmCore n)).staleKnot + 1) % 2 ^ 32)
          ∧ (s.dev.postedTo c.toNat n = false → ∃ t, exec (.krd c g o) s = .next t ∧ s.sameClock t
              ∧ t.core c = { k with g := k.g.set 0 o.val.toNat 0xFFFFFFFF, pc := k.pcNext, run := .running }
              ∧ (t.dev.core (nmCore n)).staleKnot = ((s.dev.core (nmCore n)).staleKnot + 1) % 2 ^ 32)))

/-- SEND of 1 to 32 flits whose bytes lie in the own pool adds, behind the messages in flight, one from this
core to the core g[gDEST] names, on its channel, of this dispatch, with those bytes; within a bundle it stands
at once in the order of the receiver's crossbar port, otherwise it asks for the first port of its route (R43,
R68); and the core goes on. POST of a window inside the own pool opens the channel with its base, flits and
knot, write point 0 and nothing used; POST with COUNT0 0 closes it. MFREE of no more flits than are used returns
them. MPTR writes the pool offset of the write point. No pool byte changes. MSG_ARRIVE of the first message in
flight between two cores, at the head of its receiver's crossbar port: of another dispatch, or longer than the
window, it is dropped and counted in STALE_MSG; with room at the write point (passing over the window's end
where it would not fit) its bytes enter the pool there, the write point moves behind it, its flits are used, and
the window's knot is signalled, which may release cores that wait for it; without room it stays in flight. Of a
message that is not yet there, or stands behind another at that port, and with none in flight, nothing changes.
-/
def Obligations.MessageResult : Prop :=
  (∀ (s : State) (c : CoreId) (g : Guard), s.executes c g →
    let k := s.core c
    let reg (r : BitVec 5) : W32 := k.g.get 0 r.toNat
    let goOn (k : Core) : Host.Outcome State Fault Refusal :=
      .next (s.withCore c { k with pc := k.pcNext, run := .running })
    (∀ o : SendOps, o.rsv = 0 →
      let f := (reg o.len).toNat
      let base := descBase (k.d.get 0 o.src.toNat)
      1 ≤ f → f ≤ 32 → base + 32 * f ≤ 0x300000 →
        ∃ t, exec (.send c g o) s = .next t ∧ s.sameClock t
          ∧ t.core c = { k with pc := k.pcNext, run := .running }
          ∧ (∃ m : Msg, t.dev.fab.msgs = s.dev.fab.msgs ++ [m] ∧ m.src = c.toNat ∧ m.dst = (reg o.dest).toNat % 64
              ∧ m.chan = (reg o.dest).toNat / 256 % 16 ∧ m.gen = k.gen
              ∧ m.lst = (k.deadline + 2 ^ 32 - (reg o.delta).toNat) % 2 ^ 32 ∧ m.data = k.pool.getList 0 base (32 * f)
              ∧ (msgRoute m.src m.dst f = [] → m.turn = some m.id ∧ t.dev.arb.reqs = s.dev.arb.reqs)
              ∧ ∀ h r, msgRoute m.src m.dst f = h :: r → m.turn = none ∧ ∃ q, t.dev.arb.reqs = s.dev.arb.reqs ++ [q]
                  ∧ q.site = h.site ∧ q.inst = h.inst ∧ q.port = h.port ∧ q.lst = m.lst ∧ q.route = r ∧ q.job.what = .msg m.id)
          ∧ (∀ e : CoreId, e ≠ c → t.core e = s.core e) ∧ t.dev.mem = s.dev.mem ∧ t.dev.freeCount = s.dev.freeCount)
      ∧ (∀ o : PostOps, o.rsv = 0 →
          let w : BitVec 128 := k.d.get 0 o.win.toNat
          exec (.post c g o) s =
            if descCount0 w = 0 then goOn { k with chans := k.chans.set {} o.chan.toNat {} }
            else if descBase w + 32 * descCount0 w ≤ 0x300000 then
              goOn { k with chans := k.chans.set {} o.chan.toNat ⟨descBase w, descCount0 w, o.knot.toNat, 0, 0⟩ }
            else .next (s.withFault c fcPoolRange (descBase w)))
      ∧ ∀ o : ChanOps, o.rsv = 0 →
          let ch : Chan := k.chans.get {} o.chan.toNat
          ((reg o.g).toNat ≤ ch.used → exec (.mfree c g o) s =
              goOn { k with chans := k.chans.set {} o.chan.toNat { ch with used := ch.used - (reg o.g).toNat } })
            ∧ exec (.mptr c g o) s = goOn { k with g := k.g.set 0 o.g.toNat (BitVec.ofNat 32 (ch.base + 32 * ch.wp)) })
    ∧ (∀ (s : State) (src dst : CoreId),
    let k := s.core dst
    (s.dev.fab.msgs.find? (fun m => m.src == src.toNat && m.dst == dst.toNat) = none → exec (.msgArrive src dst) s = .next s)
      ∧ ∀ m, s.dev.fab.msgs.find? (fun m => m.src == src.toNat && m.dst == dst.toNat) = some m →
          let ch : Chan := k.chans.get {} m.chan
          let f := m.data.length / 32
          let at_ := if ch.flits < ch.wp + f then 0 else ch.wp
          let use := if ch.flits < ch.wp + f then f + (ch.flits - ch.wp) else f
          (s.dev.atPort m = false → exec (.msgArrive src dst) s = .next s)
            ∧ (s.dev.atPort m = true → (m.gen ≠ k.gen ∨ ch.flits < f) → ∃ t, exec (.msgArrive src dst) s = .next t ∧ s.sameClock t
              ∧ t.dev.fab.msgs = s.dev.fab.msgs.erase m ∧ t.core dst = { k with staleMsg := (k.staleMsg + 1) % 2 ^ 32 }
              ∧ (∀ e : CoreId, e ≠ dst → t.core e = s.core e) ∧ t.dev.fab.lknots = s.dev.fab.lknots)
            ∧ (s.dev.atPort m = true → m.gen = k.gen → f ≤ ch.flits → ch.flits < ch.used + use → exec (.msgArrive src dst) s = .next s)
            ∧ (s.dev.atPort m = true → m.gen = k.gen → 0 < f → f ≤ ch.flits → ch.used + use ≤ ch.flits →
                (s.dev.lknot dst.toNat ch.knot).count + 1 < 2 ^ 32 → (s.dev.lknot dst.toNat ch.knot).gen < 2 ^ 16 → ch.knot < 64 →
                ∃ t, exec (.msgArrive src dst) s = .next t ∧ s.sameClock t ∧ t.dev.fab.msgs = s.dev.fab.msgs.erase m
                  ∧ (t.core dst).pool = k.pool.setList 0 (ch.base + 32 * at_) m.data
                  ∧ (t.core dst).chans = k.chans.set {} m.chan { ch with wp := at_ + f, used := ch.used + use }
                  ∧ (t.dev.lknot dst.toNat ch.knot).count = (s.dev.lknot dst.toNat ch.knot).count + 1
                  ∧ t.dev.fab.cores = (s.dev.fab.cores.set Core.init dst.toNat { k with
                      pool := k.pool.setList 0 (ch.base + 32 * at_) m.data
                      chans := k.chans.set {} m.chan { ch with wp := at_ + f, used := ch.used + use } }).mapV Core.init t.dev.woken
                  ∧ t.dev.mem = s.dev.mem))

/-- NOP only goes on. SYSRD reads the system register into g[G], a read of TIME_LO latching the high half of
device time and a read of a stale count clearing it, an index not listed reading 0. SYSWR writes USER0 and
raises ILLEGAL_INSTR on any other index. FENCE goes on and HALT stops the core, naming the result block on the
control core, once no MXRUN, page-mover entry, message or posted knot operation of the core is under way. A
result block on the control core of over 16,384 words or outside the pool raises RESULT_RANGE. -/
def Obligations.SystemInstructionResult : Prop :=
  ∀ (s : State) (c : CoreId) (g : Guard) (o : SysOps), s.executes c g → o.rsv = 0 →
    let k := s.core c
    let idle : Prop := k.mx = [] ∧ k.mover = [] ∧ (∀ m ∈ s.dev.fab.msgs, m.src ≠ c.toNat) ∧ ∀ p ∈ s.dev.fab.knotOps, p.core ≠ c.toNat
    let goOn (k : Core) : Host.Outcome State Fault Refusal :=
      .next (s.withCore c { k with pc := k.pcNext, run := .running })
    let rd (k' : Core) (v : Nat) : Prop :=
      exec (.sysrd c g o) s = goOn { k' with g := k.g.set 0 o.g.toNat (BitVec.ofNat 32 v) }
    let at_ := (k.g.get 0 o.g.toNat : W32).toNat
    let words := (k.g.get 0 o.g2.toNat : W32).toNat
    exec (.nop c g o) s = goOn k
      ∧ (o.idx = 0x00 → rd k c.toNat)
      ∧ (∀ p, o.idx = 0x01 → s.dev.partOf c.toNat = some p → rd k p)
      ∧ (o.idx = 0x02 → rd k k.entry) ∧ (o.idx = 0x03 → rd k k.gen) ∧ (o.idx = 0x04 → rd k k.deadline)
      ∧ (o.idx = 0x05 → rd { k with timeHi := s.now / 2 ^ 32 % 2 ^ 32 } (s.now % 2 ^ 32))
      ∧ (o.idx = 0x06 → rd k k.timeHi) ∧ (o.idx = 0x07 → rd k (if k.control then 1 else 0))
      ∧ (o.idx = 0x08 → rd { k with staleMsg := 0 } k.staleMsg)
      ∧ (o.idx = 0x09 → rd { k with staleKnot := 0 } k.staleKnot)
      ∧ (o.idx = 0x0A → rd k k.mover.length) ∧ (o.idx = 0x0B → rd k k.mx.length) ∧ (o.idx = 0x10 → rd k k.user0.toNat)
      ∧ (0x0B < o.idx.toNat → o.idx ≠ 0x10 → rd k 0)
      ∧ (o.idx = 0x10 → exec (.syswr c g o) s = goOn { k with user0 := k.g.get 0 o.g.toNat })
      ∧ (o.idx ≠ 0x10 → exec (.syswr c g o) s = .next (s.withFault c fcIllegal 0))
      ∧ (idle → exec (.fence c g o) s = goOn k)
      ∧ (idle → k.control = true → words ≤ 16384 → at_ + 8 * words ≤ 0x300000 →
          exec (.halt c g o) s = .next (s.withCore c { k with run := .halted, pc := k.pcNext, result := (at_, words) }))
      ∧ (idle → k.control = false → exec (.halt c g o) s = .next (s.withCore c { k with run := .halted, pc := k.pcNext }))
      ∧ (k.control = true → (16384 < words ∨ 0x300000 < at_ + 8 * words) →
          exec (.halt c g o) s = .next (s.withFault c fcResultRange at_))
      ∧ (k.mx ≠ [] → exec (.fence c g o) s = .next (s.withCore c { k with run := .waitMx }))

/-- A core that runs inside its pool and meets a word that R54 and the function tables leave reserved, whose
guard holds, raises ILLEGAL_INSTR; with a guard that fails it goes on; a word that names an instruction is not
such a word and changes nothing here. Every word of class 0xB to 0xF is reserved, and so are the first unused
functions of classes 0x6, 0x8, 0x9 and 0xA. -/
def Obligations.IllegalWordResult : Prop :=
  (∀ (s : State) (c : CoreId) (w : BitVec 32),
    let g : Guard := ⟨w.extractLsb' 25 3, w.getLsbD 24⟩
    (reservedWord w.toNat = true → s.executes c g → exec (.illegalInstr c w) s = .next (s.withFault c fcIllegal 0))
      ∧ (reservedWord w.toNat = true → (s.core c).active = true → (s.core c).pc < poolBytes → (s.core c).guardOk g = false →
          exec (.illegalInstr c w) s = .next (s.withCore c { s.core c with pc := (s.core c).pcNext, run := .running }))
      ∧ (reservedWord w.toNat = false → exec (.illegalInstr c w) s = .next s))
    ∧ (∀ w : BitVec 32, 0xB ≤ w.toNat / 2 ^ 28 → reservedWord w.toNat = true)
    ∧ reservedWord 0x60400000 = true ∧ reservedWord 0x80A00000 = true ∧ reservedWord 0x90600000 = true
    ∧ reservedWord 0xA0500000 = true ∧ reservedWord 0xA0400000 = false

/-- With reserved fields zero and an even pair: PMQ adds to a queue with room the entry of a descriptor that
breaks no rule (not started, not done) and goes on, raises the descriptor's fault otherwise, and stalls while 16
are queued; PMWAIT goes on when the queue is empty and stalls otherwise; KVWALK of a legal walk with room for
all its copies adds one COPY entry for each page, in order, and goes on; one that the walk's own check refuses
raises that fault; a copy that breaks a rule of PMQ raises that fault once the copies before it are queued; and
with 16 entries queued the core stalls. Nothing moves yet: no pool byte and no memory changes. -/
def Obligations.MoverInstructionResult : Prop :=
  ∀ (s : State) (c : CoreId) (g : Guard) (o : MoverOps), s.executes c g → o.rsv = 0 →
    let k := s.core c
    let dp := o.dpair.toNat
    let lo : BitVec 128 := k.d.get 0 dp
    let hi : BitVec 128 := k.d.get 0 (dp + 1)
    let goOn (k : Core) : Host.Outcome State Fault Refusal :=
      .next (s.withCore c { k with pc := k.pcNext, run := .running })
    let waits : Host.Outcome State Fault Refusal := .next (s.withCore c { k with run := .waitMover })
    (dp % 2 = 0 → k.mover.length < 16 →
      (∀ e, checkMove lo hi = .ok e → exec (.pmq c g o) s = goOn { k with mover := k.mover ++ [e] }
          ∧ e.started = false ∧ e.done = false)
        ∧ ∀ code a, checkMove lo hi = .bad code a → exec (.pmq c g o) s = .next (s.withFault c code a))
      ∧ (dp % 2 = 0 → 16 ≤ k.mover.length → exec (.pmq c g o) s = waits)
      ∧ exec (.pmwait c g o) s = (if k.mover = [] then goOn k else waits)
      ∧ (∀ x, dp % 2 = 0 → k.walk = [] → walkCopies k lo hi = .error x → exec (.kvwalk c g o) s = .next (s.withFault c x.1 x.2))
      ∧ (∀ es, dp % 2 = 0 → k.walk = [] → walkCopies k lo hi = .ok es → (∀ e ∈ es, e.fault = none) → k.mover.length + es.length ≤ 16 →
          exec (.kvwalk c g o) s = goOn { k with mover := k.mover ++ es, walk := [] })
      ∧ (∀ es e fs x, dp % 2 = 0 → k.walk = [] → walkCopies k lo hi = .ok (es ++ e :: fs) → (∀ f ∈ es, f.fault = none) →
          e.fault = some x → k.mover.length + es.length < 16 →
          exec (.kvwalk c g o) s = .next ((s.withCore c { k with mover := k.mover ++ es, walk := [] }).withFault c x.1 x.2))
      ∧ ∀ es, dp % 2 = 0 → k.walk = [] → walkCopies k lo hi = .ok es → es ≠ [] → 16 ≤ k.mover.length →
          exec (.kvwalk c g o) s = .next (s.withCore c { k with walk := es, run := .waitMover })

/-- PM_ENTRY_START: the first entry not started, of any kind, with fewer than four in flight, none of them
touching its bytes, and for a FILL its window frames free, starts: that entry alone of the queue changes, no
byte and no other core; a COPY within the own pool or FILL_ZERO of it asks nothing of the fabric. With four in
flight, or one that touches its bytes, or no frame for a FILL, nothing changes. PM_ENTRY_COMPLETE of the only
entry of a queue, started, without done knot, of any kind, its transfers granted and the lines it reads there:
where its effect (R74, R133, R179) faults, that fault is raised; otherwise the queue is then empty and pool and
memory are what the effect leaves. A COPY within the own pool puts the bytes of the source range in the
destination range, FILL_ZERO of the own pool puts zeros there, every other pool byte stays, and nothing else of
the machine changes outside a partition. Before they are granted it stays; with no such entry neither event
changes anything. PM_ENTRY_COMPLETE of the only entry of a core outside any partition, started, without done
knot, its transfers granted: a COPY of at least a byte into the own pool whose range lies in a live allocation
of the named generation that the core reaches, none of its lines on its way, writes those bytes to the pool; a
COPY out of the own pool writes the pool's bytes to allocation memory where the range lies in an allocation that
is not read-only. Every other byte of memory stays. Where no allocation owns the page, HANDLE_STALE is raised
with the address and nothing moves. SCHEDULE_RECORD_ISSUE of a core that took part in the dispatch, is not
stopped by a fault, has records left and room in its page-mover queue: once the count of MARK_KNOT has reached
the record's MARK, the record's entry joins the queue and the next record stands next, nothing else changing; a
record that breaks a rule raises DESC_INVALID; before the mark is reached, with the queue full or with no record
left nothing changes. -/
def Obligations.MoverQueueResult : Prop :=
  (∀ (s : State) (c : CoreId),
    let k := s.core c
    let own (e : MoverEntry) : Prop :=
      (e.kind = .copy ∧ inPoolSpace e.src = true ∧ inPoolSpace e.dst = true) ∨ (e.kind = .fillZero ∧ inPoolSpace e.dst = true)
    let ready (e : MoverEntry) : Prop := e.started = true ∧ e.done = false ∧ s.dev.asking (.mover c.toNat e.ticket) = false
      ∧ (e.reads k).any (fun x => s.dev.filling x.1 x.2) = false
    (∀ (done : List MoverEntry) (e : MoverEntry) (r : List MoverEntry), k.mover = done ++ e :: r →
      (∀ f ∈ done, f.started = true) → e.started = false →
      let flying := done.filter fun f => !f.done
      let room : Prop := ∀ slot first pages, e.kind = .fill slot first pages → s.dev.fillRoom slot first pages = true
      let k' := { k with mover := done ++ { e with started := true, ticket := s.dev.arb.next } :: r }
      (flying.length < 4 → (∀ f ∈ flying, rangesMeet (f.ranges k) (e.ranges k) = false) → room →
          ∃ t, exec (.pmEntryStart c) s = .next t ∧ s.sameClock t ∧ t.core c = k'
            ∧ (∀ f : CoreId, f ≠ c → t.core f = s.core f) ∧ t.dev.mem.bytes = s.dev.mem.bytes ∧ t.dev.port = s.dev.port
            ∧ t.dev.ten = s.dev.ten
            ∧ (own e → t = { s.withCore c k' with
                dev := { (s.withCore c k').dev with arb := { s.dev.arb with next := s.dev.arb.next + 1 } } }))
        ∧ ((4 ≤ flying.length ∨ (∃ f ∈ flying, rangesMeet (f.ranges k) (e.ranges k) = true) ∨ ¬ room) →
            exec (.pmEntryStart c) s = .next s))
      ∧ ((∀ f ∈ k.mover, f.started = true) → exec (.pmEntryStart c) s = .next s)
      ∧ (∀ e : MoverEntry, k.mover = [e] → e.doneEn = false → ready e →
          (∀ d f, s.dev.moveEntry c.toNat e = .bad d f →
            exec (.pmEntryComplete c 0) s = .next { s with dev := d.moverFault s.now c.toNat f })
            ∧ (∀ d, s.dev.moveEntry c.toNat e = .ok d →
                ∃ t, exec (.pmEntryComplete c 0) s = .next t ∧ s.sameClock t ∧ t.core c = { d.core c.toNat with mover := [] }
                  ∧ (∀ f : CoreId, f ≠ c → t.core f = d.core f.toNat) ∧ t.dev.mem.bytes = d.mem.bytes ∧ t.dev.port = s.dev.port)
            ∧ (own e → s.dev.partOf c.toNat = none →
                ∃ m : SMap Byte, exec (.pmEntryComplete c 0) s = .next (s.withCore c { k with pool := m, mover := [] })
                  ∧ ∀ a, m.get 0 a = if e.dst ≤ a ∧ a < e.dst + e.len then
                      (if e.kind = .copy then k.pool.get 0 (e.src + (a - e.dst)) else 0) else k.pool.get 0 a))
      ∧ (∀ e : MoverEntry, k.mover = [e] → s.dev.asking (.mover c.toNat e.ticket) = true → exec (.pmEntryComplete c 0) s = .next s)
      ∧ ∀ i : BitVec 4, k.mover.length ≤ i.toNat → exec (.pmEntryComplete c i) s = .next s)
    ∧ ((∀ (s : State) (c : CoreId) (e : MoverEntry),
    let k := s.core c
    k.mover = [e] → e.kind = .copy → e.started = true → e.done = false → e.doneEn = false → 0 < e.len →
    s.dev.partOf c.toNat = none →
    s.dev.asking (.mover c.toNat e.ticket) = false →
    let busy : Prop := (pageLines e.src e.len).any (fun x => s.dev.filling x.1 x.2) = true
    (inPoolSpace e.src = false → inAllocSpace e.src = true → inPoolSpace e.dst = true → inAllocSpace e.dst = false → ¬ busy →
      (∀ slot a b, s.dev.reach c.toNat e.src e.len false = .ok slot a b →
        exec (.pmEntryComplete c 0) s =
          .next (s.withCore c { k with pool := k.pool.setList 0 e.dst (s.dev.mem.bytes.getList 0 (a.p0 * 65536 + b) e.len), mover := [] }))
        ∧ (s.dev.ownerOf (e.src % 2 ^ 38 / 65536) = none →
            exec (.pmEntryComplete c 0) s = .next (s.withFault c fcHandleStale e.src)))
      ∧ (inPoolSpace e.src = true → inAllocSpace e.src = false → inPoolSpace e.dst = false → inAllocSpace e.dst = true →
          ∀ slot a b, s.dev.reach c.toNat e.dst e.len true = .ok slot a b →
            ∃ t, exec (.pmEntryComplete c 0) s = .next t ∧ s.sameClock t ∧ t.core c = { k with mover := [] }
              ∧ (∀ x, t.dev.mem.bytes.get 0 x =
                  if a.p0 * 65536 + b ≤ x ∧ x < a.p0 * 65536 + b + e.len then k.pool.get 0 (e.src + (x - (a.p0 * 65536 + b)))
                  else s.dev.mem.bytes.get 0 x)
              ∧ (∀ f : CoreId, f ≠ c → t.core f = s.core f) ∧ t.dev.port = s.dev.port ∧ t.dev.ten = s.dev.ten))
    ∧ (∀ (s : State) (c : CoreId),
    let k := s.core c
    let w := k.pool.rdLe (k.sched.list + 32 * k.sched.next) 32
    let slots := (((s.dev.partOf c.toNat).bind s.dev.boundWeave).map (·.planSlots)).getD []
    let reached : Prop := w / 2 ^ 16 % 2 ^ 16 ≤ (s.dev.lknot c.toNat k.sched.mark).count
    (k.part = true → k.run ≠ .faulted → k.sched.next < k.sched.count → k.mover.length < 16 →
      (reached → ∀ e, s.dev.recordEntry w slots = some e →
          exec (.scheduleRecordIssue c) s =
            .next (s.withCore c { k with mover := k.mover ++ [e], sched := { k.sched with next := k.sched.next + 1 } }))
        ∧ (reached → s.dev.recordEntry w slots = none →
            exec (.scheduleRecordIssue c) s = .next (s.withFault c fcDesc 0))
        ∧ (¬ reached → exec (.scheduleRecordIssue c) s = .next s))
      ∧ ((16 ≤ k.mover.length ∨ k.sched.count ≤ k.sched.next) → exec (.scheduleRecordIssue c) s = .next s)))

/-- ARBITER_GRANT at a site whose holder is no message that waits at its receiver's port. Without a request
there it stands free and nothing else changes; one over a bridge side that has stopped does not count (R406). At
a site other than a memory port, where r stands before every other request (past ones first, the one past
longer; then the smaller distance; then the port that stands first): its port holds the resource from now on;
with more than one unit left r stays raised with one unit less; with its last unit it leaves, and is raised at
the next port of its route if there is one; the losers stay as they are. The last grant of a message puts it
behind those that wait at its receiver's crossbar port. At a memory port that serves and owes no refresh, the
last unit of such a request that activates a page steps the generator of the half and counts an activation of
the page's bank; a port that does not serve grants nothing. A message that waits at its receiver's port keeps
the output. Of two requests neither past nor at distance 0 or less, the one with the smaller signed distance
stands first, and of equal ones that of the lower port. REQUEST_PAST marks the port's request with the moment
its distance reached 0, and changes nothing else. HOLD_CUT of a resource without holder, or of one that has held
for less than its hold limit, changes nothing. At the limit, a message or a mover entry of a core without
partition is lost, with what it asks elsewhere; HOLD_CUT is raised with site, port and owner 0xFF and logged
with the core; with no other request the resource is free. With a partition as owner PARTITION_FAULT of code
HOLD_CUT is raised, too, with the core and its program offset. NEIGHBOUR_REFRESH_ISSUE, the only request of the
subchannel's port being a neighbour refresh or a refresh-management command: the oldest pending neighbour
refresh is issued, or the bank's activations are paid for; with no request, or none of that kind nearest,
nothing changes. -/
def Obligations.ArbiterResult : Prop :=
  (∀ (s : State) (site : Site) (inst : Nat),
    let held : Bool := s.dev.arb.holders.any fun h => h.at_ site inst && s.dev.heldOpen h
    let others := s.dev.arb.holders.filter fun h => !h.at_ site inst
    let free : State := { s with dev := { s.dev with arb := { s.dev.arb with holders := others } } }
    let passes (r : Req) : Prop := site = .bridge → ∀ h ∈ r.sides, s.dev.hub.laneStopped.get false h = false
    let stands (r : Req) : Prop := r ∈ s.dev.arb.reqs ∧ r.at_ site inst = true ∧ passes r
      ∧ ∀ e ∈ s.dev.arb.reqs, e.at_ site inst = true → passes e → e ≠ r → r.nearer s.now e = true ∧ e.nearer s.now r = false
    (held = true → exec (.arbiterGrant site inst) s = .next s)
      ∧ (held = false → site ≠ .memPort → (∀ r ∈ s.dev.arb.reqs, r.at_ site inst = true → ¬ passes r) → exec (.arbiterGrant site inst) s = .next free)
      ∧ (held = false → site = .memPort → (s.dev.dram.serves = false ∨ (s.dev.sub inst).stopped s.now = true) →
          exec (.arbiterGrant site inst) s = .next free)
      ∧ (∀ r, held = false → site ≠ .memPort → stands r → ∃ t, exec (.arbiterGrant site inst) s = .next t ∧ s.sameClock t
          ∧ ((1 < r.units ∨ r.route ≠ [] ∨ (∃ id, r.job.what = .msg id) ∨ ∃ c n, r.job.what = .mover c n) →
              t = { s with dev := { s.dev with arb := t.dev.arb, fab := t.dev.fab } }
              ∧ t.dev.arb.holders = others ++ [⟨site, inst, r.port, s.now, r.lst, r.job, r.route⟩]
              ∧ (1 < r.units → t.dev.fab = s.dev.fab
                  ∧ t.dev.arb.reqs = s.dev.arb.reqs.map fun x => if x = r then { r with units := r.units - 1 } else x)
              ∧ (r.units ≤ 1 → r.route = [] → t.dev.arb.reqs = s.dev.arb.reqs.erase r
                  ∧ t.dev.fab.msgs = s.dev.fab.msgs.map fun m =>
                      if r.job.what = .msg m.id then { m with turn := some s.dev.arb.next } else m)
              ∧ ∀ h l, r.units ≤ 1 → r.route = h :: l → t.dev.fab = s.dev.fab
                  ∧ ∃ q : Req, t.dev.arb.reqs = s.dev.arb.reqs.erase r ++ [q]
                  ∧ q.site = h.site ∧ q.inst = h.inst ∧ q.port = h.port ∧ q.units = h.units ∧ q.lst = r.lst ∧ q.job = r.job ∧ q.route = l))
      ∧ (∀ r page c n, held = false → site = .memPort → s.dev.dram.serves = true → (s.dev.sub inst).stopped s.now = false →
          s.dev.refreshReqs s.now inst = [] → stands r → r.units ≤ 1 → r.route = [] → r.job.what = .mover c n → r.page = some page →
          (s.dev.halfDram (inst / 6)).draws + 1 < 2 ^ 32 →
          let gen := Config.genStep (s.dev.halfDram (inst / 6)).gen128
          let bank := (Config.rowAt inst page).1
          ∃ t, exec (.arbiterGrant site inst) s = .next t ∧ t = { s with dev := { s.dev with arb := t.dev.arb, dram := t.dev.dram } }
            ∧ t.dev.arb.holders = others ++ [⟨site, inst, r.port, s.now, r.lst, r.job, r.route⟩]
            ∧ (t.dev.halfDram (inst / 6)).gen128 = gen
            ∧ (t.dev.sub inst).activations.get 0 bank = (s.dev.sub inst).activations.get 0 bank + 1
            ∧ (Config.genHit gen s.dev.dram.nrShift = false → (t.dev.sub inst).neighbours = (s.dev.sub inst).neighbours
                ∧ t.dev.arb.reqs = s.dev.arb.reqs.erase r)
            ∧ (Config.genHit gen s.dev.dram.nrShift = true → (s.dev.sub inst).neighbours.length < 16 →
                (t.dev.sub inst).neighbours = (s.dev.sub inst).neighbours
                  ++ [⟨s.now + 3900, (Config.rowAt inst page).1, (Config.rowAt inst page).2, s.dev.dram.kit.directed⟩]))
      ∧ ∀ a b : Req, a.past = none → b.past = none → 0 < lstDist s.now a.lst → 0 < lstDist s.now b.lst →
          (a.nearer s.now b = true ↔
            lstDist s.now a.lst < lstDist s.now b.lst ∨ (lstDist s.now a.lst = lstDist s.now b.lst ∧ a.port < b.port)))
    ∧ (∀ (s : State),
    (∀ site inst port,
      exec (.requestPast site inst port) s = .next { s with dev := { s.dev with arb := { s.dev.arb with
        reqs := s.dev.arb.reqs.map fun r =>
          if r.site = site ∧ r.inst = inst ∧ r.port = port then { r with past := r.pastSince s.now } else r } } })
      ∧ (∀ site inst, s.dev.arb.holders.find? (·.at_ site inst) = none → exec (.holdCut site inst) s = .next s)
      ∧ (∀ site inst h, s.dev.arb.holders.find? (·.at_ site inst) = some h →
          (s.now < h.since + s.dev.holdNs site inst → exec (.holdCut site inst) s = .next s)
            ∧ (h.since + s.dev.holdNs site inst ≤ s.now → h.job.part = none → site ≠ .memPort →
                (∀ r ∈ s.dev.arb.reqs, r.at_ site inst = true → r.job.what = h.job.what) →
                ((∃ id, h.job.what = .msg id) ∨ ∃ (c : CoreId) (n : Nat), h.job.what = .mover c.toNat n) →
                ∃ t, exec (.holdCut site inst) s = .next t
                  ∧ t = { s with dev := { s.dev with arb := t.dev.arb, ev := t.dev.ev, aon := t.dev.aon, fab := t.dev.fab } }
                  ∧ t.dev.arb = { s.dev.arb with
                      reqs := s.dev.arb.reqs.filter fun r => r.job.what != h.job.what
                      holders := s.dev.arb.holders.filter fun x => !x.at_ site inst && x.job.what != h.job.what }
                  ∧ (∀ id, h.job.what = .msg id →
                      t.dev.fab = { s.dev.fab with msgs := s.dev.fab.msgs.filter fun m => m.id != id })
                  ∧ (∀ (c : CoreId) n, h.job.what = .mover c.toNat n → t.core c = { s.core c with
                      mover := (s.core c).mover.filter fun e => !(e.started && e.ticket == n) }
                      ∧ t.dev.fab.msgs = s.dev.fab.msgs)
                  ∧ t.dev.ev.waiting = s.dev.ev.waiting
                      ++ [⟨s.now, 1, 0x0003, mkWord [(siteNum site, 0), (h.port, 8), (0xFF, 16)], 0⟩]
                  ∧ ∃ e, t.dev.aon.log.getLast? = some e ∧ e.code = fcHoldCut ∧ e.core = h.job.core)
            ∧ (∀ p, h.since + s.dev.holdNs site inst ≤ s.now → h.job.part = some p →
                ∃ t, exec (.holdCut site inst) s = .next t ∧ s.sameClock t
                  ∧ (⟨s.now, 1, 0x0003, mkWord [(siteNum site, 0), (h.port, 8), (p, 16)], 0⟩ : Ev) ∈ t.dev.ev.waiting
                  ∧ ∀ c, h.job.core = some c → ∃ k, (⟨s.now, 1, 0x0001, mkWord [(p, 0), (fcHoldCut, 16)], mkWord [(c, 0), (k, 32)]⟩ : Ev)
                      ∈ t.dev.ev.waiting))
      ∧ ∀ sc : Subch,
          let x := s.dev.sub sc.val
          let raised := s.dev.arb.reqs.filter (·.at_ .memPort sc.val)
          let up : Prop := s.dev.dram.serves = true ∧ x.stopped s.now = false
          ((¬ up ∨ (raised = [] ∧ s.dev.refreshReqs s.now sc.val = [])) → exec (.neighbourRefreshIssue sc) s = .next s)
            ∧ (∀ r, up → raised = [r] → s.dev.refreshReqs s.now sc.val = [] → r.job.what = .neighbour → r.units = 1 →
                r.route = [] → r.page = none → ∃ t, exec (.neighbourRefreshIssue sc) s = .next t
                  ∧ t = { s with dev := { s.dev with arb := t.dev.arb, dram := t.dev.dram } }
                  ∧ (t.dev.sub sc.val).neighbours = x.neighbours.drop 1 ∧ t.dev.arb.reqs = s.dev.arb.reqs.erase r)
            ∧ ∀ r bank, up → raised = [] → s.dev.refreshReqs s.now sc.val = [r] → r.job.what = .rfm bank →
                ∃ t, exec (.neighbourRefreshIssue sc) s = .next t
                  ∧ t = { s with dev := { s.dev with arb := t.dev.arb, dram := t.dev.dram } }
                  ∧ (t.dev.sub sc.val).activations.get 0 bank = x.activations.get 0 bank - s.dev.dram.kit.activations)

/-- EVENT_PASS, the port answering: the event that stands first (earlier, then the source of the lower number,
then the one raised first) leaves the waiting events under the next event sequence number; with room in the
FIFO, and no loss to report, its record of four words enters it last and the EVENT cause is set (FAULT for
source 1, ALARM for source 2, KNOT for KNOT_FIRE); with the FIFO full it is dropped and counted as lost, the
records already held staying. EVENT_PORT_READ reads the next word of the first record, the fourth removing the
record, and 0 from an empty FIFO; EVENT_AVAIL_READ reads the whole records readable and the records lost, which
it clears. -/
def Obligations.EventPassResult : Prop :=
  ∀ (s : State), s.dev.portOn = true →
    (s.dev.ev.waiting = [] → exec .eventPass s = .next s)
      ∧ (∀ (i : Nat) (e : Ev), s.dev.ev.waiting[i]? = some e →
          (∀ j f, s.dev.ev.waiting[j]? = some f → j ≠ i → e.before f = true ∨ (f.before e = false ∧ i < j)) → s.dev.ev.gap = none →
          ∃ t, exec .eventPass s = .next t
            ∧ t = { s with dev := { s.dev with ev := t.dev.ev, port := t.dev.port, arb := t.dev.arb } }
            ∧ t.dev.arb.reqs = s.dev.arb.reqs ∧ t.dev.ev.waiting = s.dev.ev.waiting.eraseIdx i ∧ t.dev.ev.seq = (s.dev.ev.seq + 1) % 2 ^ 32
            ∧ (s.dev.ev.fifo.length < 4096 →
                t.dev.ev.fifo = s.dev.ev.fifo ++ [[mkWord [(s.dev.ev.seq, 0), (e.code, 32), (e.source, 48)], BitVec.ofNat 64 e.time, e.w2, e.w3]]
                  ∧ t.dev.ev.lost = s.dev.ev.lost ∧ t.dev.port.cause.getLsbD 1 = true
                  ∧ (e.source = 1 → t.dev.port.cause.getLsbD 5 = true) ∧ (e.source = 2 → t.dev.port.cause.getLsbD 6 = true)
                  ∧ (e.code = 0x0030 → t.dev.port.cause.getLsbD 4 = true))
            ∧ (4096 ≤ s.dev.ev.fifo.length → t.dev.ev.fifo = s.dev.ev.fifo ∧ t.dev.ev.lost = (s.dev.ev.lost + 1) % 2 ^ 32
                ∧ t.dev.ev.gap = some (s.dev.ev.seq, 1)))
      ∧ exec .eventPortRead s = .next { s with dev := { s.dev with
          port := { s.dev.port with readData := [match s.dev.ev.fifo with | [] => 0 | r :: _ => r.getD s.dev.ev.rpos 0] }
          ev := match s.dev.ev.fifo with
            | [] => s.dev.ev
            | _ :: l => if s.dev.ev.rpos < 3 then { s.dev.ev with rpos := s.dev.ev.rpos + 1 } else { s.dev.ev with fifo := l, rpos := 0 } } }
      ∧ exec .eventAvailRead s = .next { s with dev := { s.dev with
          ev := { s.dev.ev with lost := 0 }
          port := { s.dev.port with readData :=
            [mkWord [(s.dev.ev.fifo.length - (if s.dev.ev.rpos = 0 then 0 else 1), 0), (s.dev.ev.lost, 32)]] } } }

/-- CMD_PORT_WRITE of 1 to 32 words, the port answering with no error latched: a good TLP that fits the free
words enters the FIFO whole, in order; one that does not fit latches OVERFLOW, and the FIFO holds at most 8,192
words; over PCIe a poisoned or ECRC-failed TLP loses all its words, and one with a byte disabled in its first
word loses that word and those after it, latching POISONED, ECRC or PARTIAL with the index and expected sequence
number of the packet in progress. A latched error sets the PORT cause. With an error latched every word is
discarded. Nothing but the port changes. A PCIe write of more than 32 words is none that the port takes and
changes nothing. -/
def Obligations.CommandPortWriteResult : Prop :=
  ∀ (s : State) (ws : List Word),
    let p := s.dev.port
    let portOnly (t : State) : Prop := t = { s with dev := { s.dev with port := t.dev.port } }
    (1 ≤ ws.length → ws.length ≤ 32 → s.dev.portOn = true → p.err = none →
      (s.dev.ready = true → p.fifo.length + ws.length ≤ 8192 → ∃ t, exec (.cmdPortWrite ws .good) s = .next t ∧ portOnly t
          ∧ t.dev.port.fifo = p.fifo ++ ws ∧ t.dev.port.err = none ∧ t.dev.port.replies = p.replies ∧ t.dev.port.interp = p.interp)
        ∧ (s.dev.ready = true → p.fifo.length ≤ 8192 → 8192 < p.fifo.length + ws.length →
            ∃ t e, exec (.cmdPortWrite ws .good) s = .next t ∧ portOnly t
              ∧ t.dev.port.err = some e ∧ e.cause = 3 ∧ t.dev.port.cause.getLsbD 2 = true ∧ t.dev.port.fifo.length ≤ 8192)
        ∧ (s.dev.aon.bootSel = false → ∀ flt cause, (flt = TlpFault.poisoned ∧ cause = 1) ∨ (flt = TlpFault.ecrc ∧ cause = 2) ∨ (flt = TlpFault.partialWord 0 ∧ cause = 4) →
            ∃ t, exec (.cmdPortWrite ws flt) s = .next t ∧ portOnly t
              ∧ t.dev.port.err = some ⟨cause, p.arrHdr.isSome, p.arrIdx, p.arrSeq⟩ ∧ t.dev.port.cause.getLsbD 2 = true
              ∧ t.dev.port.fifo = p.fifo.take (p.fifo.length - p.arrIdx)
              ∧ t.dev.port.replies = p.replies ++ (match p.arrHdr with
                  | some h => [replyWords (hdrId h p.arrSeq p.epoch) 0x0200 s.now p.rseq []]
                  | none => [])))
      ∧ (1 ≤ ws.length → ws.length ≤ 32 → p.err.isSome = true → exec (.cmdPortWrite ws .good) s = .next s)
      ∧ (s.dev.aon.bootSel = false → 32 < ws.length → ∀ flt, exec (.cmdPortWrite ws flt) s = .next s)

/-- The headline of the command path. A packet of 3 to 32 words whose header gives its LENGTH and whose check
word carries the expected sequence number and the packet CRC, written in one good TLP to a ready port that holds
nothing, and then checked, is the good packet that the interpreter holds, whole, with t_admit the device time of
the check and the demand items then held; PORT_SEQ records its number, the expected number advances by 1, its
tag is busy, no error latches and no reply is made, if its context is open, its tag admits its generation, and
its opcode is listed, belongs to its context's class and is served by the device. While that packet is held, a
further check changes nothing. -/
def Obligations.PacketTakenWhole : Prop :=
  ∀ (s : State) (ws : List Word),
    let p := s.dev.port
    let seq := p.expSeq
    let h := wordAt ws 0
    let ctx := h.toNat / 2 ^ 32 % 2 ^ 8
    let tag := h.toNat / 2 ^ 44 % 2 ^ 12
    let gen := h.toNat / 2 ^ 40 % 2 ^ 4
    let op := h.toNat / 2 ^ 56 % 2 ^ 8
    let q : Packet := ⟨sealPacket seq ws, s.now, p.epoch, s.dev.itemsHeld⟩
    s.dev.portOn = true → s.dev.ready = true → s.dev.leaving = false → s.dev.hub.oos = false →
    p.err = none → p.fifo = [] → p.stage = [] → p.arrIdx = 0 → p.interp = none → seq < 2 ^ 32 →
    2 ≤ ws.length → ws.length ≤ 31 → h.toNat / 2 ^ 12 % 2 ^ 20 = ws.length + 1 →
    s.dev.ctxOpen ctx = true → (p.tags.get {} (tagKey ctx tag)).check gen = none → opcodeListed op = true → classOk op ctx = true →
    ∃ t u, exec (.cmdPortWrite (sealPacket seq ws) .good) s = .next t ∧ exec .packetCheck t = .next u
      ∧ u.dev.port.interp = some q ∧ u.dev.port.fifo = [] ∧ u.dev.port.err = none ∧ u.dev.port.replies = p.replies
      ∧ u.dev.port.lastGood = seq ∧ u.dev.port.expSeq = (seq + 1) % 2 ^ 32
      ∧ u.dev.port.tags.get {} (tagKey ctx tag) = ⟨true, gen, true⟩
      ∧ u = { s with dev := { s.dev with port := u.dev.port } }
      ∧ (s.dev.interprets = true → u.holds op q) ∧ exec .packetCheck u = .next u

/-- PACKET_CHECK, the port answering, no good packet held, the FIFO holding a whole packet and nothing staged,
no error latched: a LENGTH below 3 latches LENGTH and answers FRAMING_LOST; a wrong CRC latches CHECK and
answers CHECK_FAIL; a number that is not the expected one latches SEQ and answers SEQ_GAP; each of them discards
every word of the FIFO, PORT_SEQ staying. A good packet of a closed context is answered REFUSED_STATE, one whose
generation does not follow STALE_GEN, one of an unlisted opcode UNKNOWN_OPCODE, one of the other class DENIED;
none of them is held, and PORT_SEQ records it. Nothing but the port changes. (No packet before it waits for its
reply.) -/
def Obligations.PacketRefused : Prop :=
  ∀ (s : State) (ws rest : List Word),
    let p := s.dev.port
    let h := wordAt ws 0
    let chk := wordAt ws (ws.length - 1)
    let seq := chk.toNat / 2 ^ 32
    let ctx := h.toNat / 2 ^ 32 % 2 ^ 8
    let gen := h.toNat / 2 ^ 40 % 2 ^ 4
    let op := h.toNat / 2 ^ 56 % 2 ^ 8
    let tag := p.tags.get {} (tagKey ctx (h.toNat / 2 ^ 44 % 2 ^ 12))
    let good : Prop := packetCrc seq (ws.take (ws.length - 1)) = chk.toNat % 2 ^ 32
    let base : Prop := s.dev.portOn = true ∧ s.dev.leaving = false ∧ p.interp = none ∧ p.stage = [] ∧ p.order = [] ∧ p.err = none
    let whole : Prop := p.fifo = ws ++ rest ∧ 3 ≤ ws.length ∧ h.toNat / 2 ^ 12 % 2 ^ 20 = ws.length
    let answered (t : State) (sq status : Nat) : Prop :=
      t = { s with dev := { s.dev with port := t.dev.port, hub := { s.dev.hub with resetAsk := t.dev.hub.resetAsk } } }
        ∧ t.dev.port.replies = p.replies ++ [replyWords (hdrId h sq p.epoch) status s.now p.rseq []] ∧ t.dev.port.interp = none
    let lost (t : State) (e : PortErr) : Prop :=
      t.dev.port.err = some e ∧ t.dev.port.fifo = [] ∧ t.dev.port.lastGood = p.lastGood ∧ t.dev.port.expSeq = p.expSeq
        ∧ t.dev.port.cause.getLsbD 2 = true
    let taken (t : State) : Prop :=
      t.dev.port.err = none ∧ t.dev.port.fifo = rest ∧ t.dev.port.lastGood = seq ∧ t.dev.port.expSeq = (p.expSeq + 1) % 2 ^ 32
    (base → p.fifo = ws ++ rest → ws ≠ [] → h.toNat / 2 ^ 12 % 2 ^ 20 < 3 →
      ∃ t, exec .packetCheck s = .next t ∧ answered t p.expSeq 0x0200 ∧ lost t ⟨5, true, 0, p.expSeq⟩)
      ∧ (base → whole → ¬ good → ∃ t, exec .packetCheck s = .next t ∧ answered t seq 0x0201 ∧ lost t ⟨6, true, ws.length - 1, p.expSeq⟩)
      ∧ (base → whole → good → seq ≠ p.expSeq →
          ∃ t, exec .packetCheck s = .next t ∧ answered t seq 0x0202 ∧ lost t ⟨7, true, ws.length - 1, p.expSeq⟩)
      ∧ (base → whole → good → seq = p.expSeq → s.dev.ctxOpen ctx = false →
          ∃ t, exec .packetCheck s = .next t ∧ answered t seq 0x0101 ∧ taken t ∧ t.dev.port.tags = p.tags)
      ∧ (base → whole → good → seq = p.expSeq → s.dev.ctxOpen ctx = true → tag.used = true → gen ≠ (tag.gen + 1) % 16 →
          ∃ t, exec .packetCheck s = .next t ∧ answered t seq 0x0700 ∧ taken t ∧ t.dev.port.tags = p.tags)
      ∧ (base → whole → good → seq = p.expSeq → s.dev.ctxOpen ctx = true → tag.check gen = none → opcodeListed op = false →
          ∃ t, exec .packetCheck s = .next t ∧ answered t seq 0x0601 ∧ taken t)
      ∧ (base → whole → good → seq = p.expSeq → s.dev.ctxOpen ctx = true → tag.check gen = none → opcodeListed op = true →
          s.dev.hub.oos = false → classOk op ctx = false → ∃ t, exec .packetCheck s = .next t ∧ answered t seq 0x0400 ∧ taken t)

/-- A write of PORT_RESYNC with KEY 0xA5 and CMD set, the port answering, acts behind every write that stands
before it in the queue of commands: it empties the FIFO and drops the packet in progress, which is answered
FRAMING_LOST if its header had arrived and not otherwise; it clears PORT_ERR; it sets the expected number to
NEXT_SEQ and LAST_GOOD to NEXT_SEQ − 1; a good TLP written after it to a ready device enters the FIFO whole. It
acts so whether or not an error is latched, for any NEXT_SEQ, and changes nothing but the port. -/
def Obligations.PortResyncResult : Prop :=
  ∀ (s : State) (v : Word), s.dev.portOn = true → v.toNat / 2 ^ 56 = 0xA5 → v.getLsbD 48 = true →
    let p := s.dev.port
    let next := v.toNat % 2 ^ 32
    (∀ (w : Instr) (rest : List Instr) (u : State), s.pending = w :: .portResyncCmd v :: rest → step s = .next u →
        u.pending = .portResyncCmd v :: rest)
      ∧ ∃ t, exec (.portResyncCmd v) s = .next t ∧ t = { s with dev := { s.dev with port := t.dev.port } }
        ∧ t.dev.port.fifo = [] ∧ t.dev.port.stage = [] ∧ t.dev.port.arrIdx = 0 ∧ t.dev.port.arrHdr = none
        ∧ t.dev.port.replies = p.replies ++ (match p.arrHdr with
            | some h => [replyWords (hdrId h p.arrSeq p.epoch) 0x0200 s.now p.rseq []]
            | none => [])
        ∧ t.dev.port.err = none
        ∧ t.dev.port.expSeq = next ∧ t.dev.port.arrSeq = next ∧ t.dev.port.lastGood = (next + 2 ^ 32 - 1) % 2 ^ 32
        ∧ ∀ ws : List Word, s.dev.ready = true → 1 ≤ ws.length → ws.length ≤ 32 →
            ∃ u, exec (.cmdPortWrite ws .good) t = .next u ∧ u.dev.port.fifo = ws ∧ u.dev.port.err = none

/-- The port answering: a read of one word of REPLY_PORT returns the next word of the first reply and advances,
the last word of a reply removing it and keeping it as the one a rewind can reach; an empty queue reads 0 and
nothing is removed. A write of PORT_RESYNC with KEY 0xA5 and REPLY_REWIND set returns the read point to the
header of the reply being read, or, between replies, puts back the reply last finished; with another KEY it is
ignored. A read of two words returns the next two in order. A PCIe read of more than 8 words is none that the
port takes and changes nothing. Nothing but the port's reading changes. -/
def Obligations.ReplyReadResult : Prop :=
  ∀ (s : State),
    let p := s.dev.port
    let with_ (q : Port) : Host.Outcome State Fault Refusal := .next { s with dev := { s.dev with port := q } }
    (s.dev.portOn = true →
      (p.replies = [] → exec (.replyPortRead 1) s = with_ { p with readData := [0] })
        ∧ (∀ r l, p.replies = r :: l → p.rpos + 1 < r.length →
            exec (.replyPortRead 1) s = with_ { p with
              readData := [r.getD p.rpos 0], rpos := p.rpos + 1, rlast := if p.rpos = 0 then none else p.rlast })
        ∧ (∀ r l, p.replies = r :: l → r.length = p.rpos + 1 →
            exec (.replyPortRead 1) s = with_ { p with readData := [r.getD p.rpos 0], replies := l, rpos := 0, rlast := some r })
        ∧ ∀ v : Word, v.getLsbD 49 = true → v.toNat / 2 ^ 56 = 0xA5 →
            (p.rpos ≠ 0 → exec (.replyRewind v) s = with_ { p with rpos := 0 })
              ∧ (∀ r, p.rpos = 0 → p.rlast = some r → exec (.replyRewind v) s = with_ { p with replies := r :: p.replies, rlast := none })
              ∧ (p.rpos = 0 → p.rlast = none → exec (.replyRewind v) s = .next s))
      ∧ (∀ v : Word, v.toNat / 2 ^ 56 ≠ 0xA5 → exec (.replyRewind v) s = .next s ∧ exec (.portResyncCmd v) s = .next s)
      ∧ (s.dev.portOn = true → ∀ r l, p.replies = r :: l → p.rpos = 0 → 2 < r.length →
          exec (.replyPortRead 2) s = with_ { p with readData := [r.getD 0 0, r.getD 1 0], rpos := 2, rlast := none })
      ∧ ∀ n : BitVec 4, s.dev.aon.bootSel = false → 8 < n.toNat → exec (.replyPortRead n) s = .next s

/-- The port answering: a 4-byte read of TIME returns its low half and latches the high half, which a 4-byte
read at 0x0014 returns; CMD_PORT, PORT_RESYNC and offsets that are not listed read as 0, INT_CAUSE, INT_MASK,
CREDIT_THRESH and XSPI_CTRL as they stand; a write of INT_CAUSE clears the causes whose bits are 1 and the
pending bits of their vectors, and HOST_IRQ_N is low exactly while an unmasked cause is left; a write of
INT_MASK sets the mask, with no cause set sending nothing, and with the one set cause unmasked sending its
vector's message where neither the vector nor the function is masked and Bus Master Enable is set, and otherwise
setting its pending bit; a write of XSPI_CTRL sets the mode over xSPI and is ignored over PCIe; an aligned write
of CREDIT_THRESH sets bits 13 to 0, one of an unlisted offset is ignored, and so is one that is not aligned; Bus
Master Enable and the function mask are set as written, with no vector pending sending nothing. PERST_N or a
Function Level Reset of the PCIe port empties the command FIFO, the reply queue and the event FIFO, clears
PORT_ERR, sets both next sequence numbers to 0 and the interrupt registers to their reset values; the tenant,
memory and the partitions stay. -/
def Obligations.PortRegisterResult : Prop :=
  ∀ (s : State), s.dev.portOn = true →
    let p := s.dev.port
    let with_ (q : Port) : Host.Outcome State Fault Refusal := .next { s with dev := { s.dev with port := q } }
    exec .timeReadLow s = with_ { p with readData := [BitVec.ofNat 64 (s.now % 2 ^ 32)], timeHi := s.now / 2 ^ 32 % 2 ^ 32 }
      ∧ (s.dev.readValue s.now 0x0014 false = BitVec.ofNat 64 p.timeHi ∧ s.dev.readValue s.now 0x0010 true = BitVec.ofNat 64 s.now
          ∧ s.dev.readValue s.now 0x0128 true = 0 ∧ (∀ a, 0x1000 ≤ a → a < 0x2000 → s.dev.readValue s.now a true = 0)
          ∧ (∀ a, 0x0218 ≤ a → a < 0x1000 → s.dev.readValue s.now a true = 0)
          ∧ s.dev.readValue s.now 0x0200 true = p.cause.setWidth 64 ∧ s.dev.readValue s.now 0x0208 true = p.mask.setWidth 64
          ∧ s.dev.readValue s.now 0x0210 true = BitVec.ofNat 64 p.creditThresh
          ∧ s.dev.readValue s.now 0x0130 true = (if p.xspiMode then 1 else 0))
      ∧ (∀ v : Word,
          let c : BitVec 8 := v.extractLsb' 0 8
          exec (.intCauseWrite v) s = with_ { p with
            cause := p.cause &&& ~~~c, msixPend := p.msixPend &&& ~~~c, irqLow := decide (p.cause &&& ~~~c &&& ~~~p.mask ≠ 0) })
      ∧ (∀ v : Word, p.cause = 0 → exec (.intMaskWrite v) s = with_ { p with mask := v.extractLsb' 0 8, irqLow := false })
      ∧ (∀ (v : Word) (n : Nat), n < 8 → p.cause = (1 : BitVec 8) <<< n → p.mask.getLsbD n = true → v.getLsbD n = false →
          s.dev.aon.bootSel = false →
          exec (.intMaskWrite v) s =
            if p.busMaster = true ∧ p.msixMasked = false ∧ (p.msix.get 0 (16 * n + 12)).getLsbD 0 = false then
              with_ { p with mask := v.extractLsb' 0 8, irqLow := true, msixSent := p.msixSent ++ [n] }
            else with_ { p with mask := v.extractLsb' 0 8, irqLow := true, msixPend := p.msixPend ||| (1 <<< n) })
      ∧ (∀ v : Word, exec (.xspiModeSet v) s = if s.dev.aon.bootSel then with_ { p with xspiMode := v.getLsbD 0 } else .next s)
      ∧ (∀ wide (v : Word), exec (.regWriteOther (.bar0 0x0210) wide v) s = with_ { p with creditThresh := v.toNat % 2 ^ 14 })
      ∧ (∀ (off : BitVec 16) wide (v : Word), off.toNat % 8 = 0 → off ≠ 0x0210 → (off.toNat < 0x4000 ∨ 0x407F < off.toNat) →
          exec (.regWriteOther (.bar0 off) wide v) s = .next s)
      ∧ (∀ (off : BitVec 16) wide (v : Word), off.toNat % 4 ≠ 0 → exec (.regWriteOther (.bar0 off) wide v) s = .next s)
      ∧ (∀ (off : BitVec 16) (v : Word), p.msixPend = 0 → off.toNat % 8 = 0 → 0x4000 ≤ off.toNat → off.toNat ≤ 0x407F →
          exec (.regWriteOther (.bar0 off) true v) s =
            with_ { p with msix := p.msix.setList 0 (off.toNat - 0x4000) (leBytes 8 v.toNat) })
      ∧ (∀ wide (v : Word), p.msixPend = 0 →
          exec (.regWriteOther .busMaster wide v) s = with_ { p with busMaster := v.getLsbD 0 }
            ∧ exec (.regWriteOther .msixFunctionMask wide v) s = with_ { p with msixMasked := v.getLsbD 0 })
      ∧ ∀ flr, s.dev.aon.bootSel = false →
          ∃ t, exec (.perstReset flr) s = .next t
            ∧ t = { s with dev := { s.dev with port := t.dev.port, ev := { s.dev.ev with fifo := [], rpos := 0 }, aon := t.dev.aon } }
            ∧ t.dev.port.fifo = [] ∧ t.dev.port.stage = [] ∧ t.dev.port.replies = [] ∧ t.dev.port.err = none
            ∧ t.dev.port.expSeq = 0 ∧ t.dev.port.rseq = 0 ∧ t.dev.port.cause = 0 ∧ t.dev.port.mask = 0xFF
            ∧ t.dev.port.creditThresh = 4096 ∧ t.dev.port.msixPend = 0
            ∧ t.dev.aon = (if flr then s.dev.aon else { s.dev.aon with perstLow := some (s.dev.aon.perstLow.getD s.now) })

/-- For every row of a host command: with no packet held by the interpreter, a packet of another opcode, or no
steward that leads, nothing changes (the model's choice, log entry 1). For every row but RUN, DECIDE,
STREAM_STEP and SEQ_FEED, a packet with a non-zero word 1, or with a flag set, whose turn it is, is answered
BAD_PARAM, and nothing else changes. -/
def Obligations.HostRowActsOnItsPacket : Prop :=
  ∀ (s : State) (i : Instr) (op : Nat), i.hostOp = some op →
    ((s.dev.port.interp = none ∨ (∃ p, s.dev.port.interp = some p ∧ p.id.op ≠ op) ∨ s.dev.interprets = false) → exec i s = .next s)
      ∧ ∀ p, op ∉ [0x30, 0x38, 0x41, 0x49] → s.serves op p → (p.w 1 ≠ 0 ∨ (p.w 0).toNat % 2 ^ 12 ≠ 0) →
          ∃ t, exec i s = .next t ∧ s.onlyAnswered t p 0x0600 []

/-- ECHO with 0 to 1,024 data words, word 1 zero and no flag is answered OK with the same words in order, from
reply word 3 on; with more words, a flag or a non-zero word 1 it is answered BAD_PARAM. Nothing else changes.
While a good packet is held for interpretation no later packet is checked, and none passes to interpretation; so
the reply to an ECHO marks that every earlier good packet has been interpreted. -/
def Obligations.EchoResult : Prop :=
  (∀ (s : State) (p : Packet), s.serves 0x00 p → 3 ≤ p.words.length →
    (p.w 1 = 0 → (p.w 0).toNat % 2 ^ 12 = 0 → p.words.length ≤ 1027 →
      ∃ t, exec .echo s = .next t ∧ s.onlyAnswered t p 0x0000 ((p.words.drop 2).take (p.words.length - 3))
        ∧ ∃ r, t.dev.port.replies.getLast? = some r ∧ (r.drop 3).take (p.words.length - 3) = (p.words.drop 2).take (p.words.length - 3))
      ∧ ((p.w 1 ≠ 0 ∨ (p.w 0).toNat % 2 ^ 12 ≠ 0 ∨ 1027 < p.words.length) →
          ∃ t, exec .echo s = .next t ∧ s.onlyAnswered t p 0x0600 []))
    ∧ ∀ (s : State), s.dev.port.interp.isSome = true → exec .packetCheck s = .next s

/-- IDENTIFY without parameters is answered OK with 15 words, DEV_ID, the versions, the serial number and the
identity key. GET_STATUS of SELECT 0 is answered OK with 13 words, DEV_STATUS first, the tenant and open
contexts, and the five residency counters in whole µs; POWER and SURPLUS are free values. Of SELECT 1 a
partition, defined or not, a tenant being open, is answered with 11 words, the partition word and the bound
weave's handle first; of SELECT 2 a live handle with 4 words, its home, pages and base address; of SELECT 3 a
loaded weave with its counts. A stale handle is answered STALE_GEN, and SELECT 1 to 3 in CLOSED REFUSED_STATE.
Nothing but the port (and, for SELECT 0, the counter of free values) changes. -/
def Obligations.StatusCommandResult : Prop :=
  ∀ (s : State) (p : Packet), p.w 1 = 0 → (p.w 0).toNat % 2 ^ 12 = 0 →
    let d := s.dev
    (s.serves 0x01 p → p.words.length = 3 → ∃ t rs, exec .identify s = .next t ∧ s.onlyAnswered t p 0 rs ∧ rs.length = 15
        ∧ rs[0]? = some (mkWord [(0x8840, 0), (0xB1, 16), (if Config.gradeE then 1 else 0, 24), (0x01, 32)])
        ∧ rs[1]? = some (Config.versions.zeroExtend 64) ∧ rs[2]? = some Config.serial)
      ∧ (s.serves 0x02 p → p.words.length = 5 →
          (p.w 2 = 0 → p.w 3 = 0 → ∃ t rs, exec .getStatus s = .next t ∧ s.answered t p 0 rs ∧ rs.length = 13
              ∧ t = { s with dev := { s.dev with port := t.dev.port, hub := { s.dev.hub with resetAsk := t.dev.hub.resetAsk },
                                                  freeCount := s.dev.freeCount + 2 } }
              ∧ rs[0]? = some d.devStatus ∧ rs[2]? = some (mkWord [(d.ten.id, 0), (d.openContexts.length, 32)])
              ∧ ∀ i < 5, rs[5 + i]? = some (BitVec.ofNat 64 (d.aon.residency.get 0 i / 1000)))
            ∧ (∀ n < 16, p.w 2 = BitVec.ofNat 64 (1 + n * 2 ^ 8) → p.w 3 = 0 → d.ten.state ≠ .closed →
                ∃ t rs, exec .getStatus s = .next t ∧ s.onlyAnswered t p 0 rs ∧ rs.length = 11
                    ∧ rs[0]? = some ((d.part n).word n)
                    ∧ ((d.part n).weave = none → rs[1]? = some 0))
            ∧ (∀ a, p.w 2 = 2 → d.ten.state ≠ .closed → (p.w 3).toNat < 2 ^ 32 → (p.w 3).toNat / 2 ^ 16 % 2 ^ 8 = 0 →
                d.byHandle (p.w 3) = some a → ∃ t rs, exec .getStatus s = .next t ∧ s.onlyAnswered t p 0 rs ∧ rs.length = 4
                    ∧ rs[0]? = some (mkWord [(if a.peat then 1 else 0, 0), (a.flags.toNat / 2 ^ 2, 2)])
                    ∧ rs[2]? = some (BitVec.ofNat 64 (2 ^ 47 + a.gen * 2 ^ 38 + a.p0 * 65536)))
            ∧ (∀ w, p.w 2 = 3 → d.ten.state ≠ .closed → (p.w 3).toNat < 2 ^ 32 → (p.w 3).toNat / 2 ^ 16 % 2 ^ 8 = 0 →
                d.weaveByHandle (p.w 3) = some w → ∃ t rs, exec .getStatus s = .next t ∧ s.onlyAnswered t p 0 rs ∧ rs.length = 2
                    ∧ rs[1]? = some (BitVec.ofNat 64 w.kinSet))
            ∧ (p.w 2 = 2 → d.ten.state ≠ .closed → (p.w 3).toNat < 2 ^ 32 → (p.w 3).toNat / 2 ^ 16 % 2 ^ 8 = 0 →
                d.byHandle (p.w 3) = none → ∃ t, exec .getStatus s = .next t ∧ s.onlyAnswered t p 0x0700 [])
            ∧ (p.w 2 = 2 → p.w 3 = 0 → d.ten.state = .closed → ∃ t, exec .getStatus s = .next t ∧ s.onlyAnswered t p 0x0101 []))

/-- TENANT_OPEN, authorised, in CLOSED with entropy ready and no key-store write under way: a tenant key is
drawn, and a write of the key store that will open the tenant with its identifier and key, and take the counter,
begins and waits for the programs of both copies; the tenancy stays as it is until then. TENANT_CLOSE of the
open tenant, none of its commands unanswered: SCRUBBING from now, the key destroyed, every context closed, no
allocation, weave, stream or sequence left. SCRUB_COMPLETE of a running scrub: CLOSED, no key, no byte of
allocation memory left, every core's pool zero. CONTEXT_OPEN opens a closed context of 1 to 255 with all its
tags fresh; CONTEXT_CLOSE closes an open one that owes no reply; both are answered OK. A KIN_ENROL whose keys
unwrap, authorised or of the first owner key (which needs no authorisation), begins the key-store write of the
new keys and counter. -/
def Obligations.TenantCommandResult : Prop :=
  ∀ (s : State) (p : Packet), p.w 1 = 0 → (p.w 0).toNat % 2 ^ 12 = 0 →
    let d := s.dev
    let quiet : Prop := ∀ w ∈ d.peat.waits, w.ready d.peat = false
    let auth (n : Nat) : List Word := (p.words.drop n).take 13
    (∀ id, 0 < id → id < 2 ^ 32 → s.serves 0x04 p → p.words.length = 17 → p.w 2 = BitVec.ofNat 64 (id + 13 * 2 ^ 32) →
        d.sec.entropyReady = true → d.pwr.state ≠ .listen → d.ten.state = .closed → quiet → d.opening = false →
        d.keyStore.authorises 0x04 [p.w 2] (auth 3) = true →
        ∃ t w, exec .tenantOpen s = .next t ∧ s.sameClock t ∧ t.dev.peat.waits = d.peat.waits ++ [w] ∧ w.id = p.id
          ∧ w.words = [BitVec.ofNat 64 id] ∧ w.left = [d.peat.opNext, d.peat.opNext + 1]
          ∧ w.ks = some { d.keyStore with counter := (p.w 3).toNat, tenant := some (id, (List.range 4).map fun i => Config.drbg (d.sec.draws + i)) }
          ∧ t.dev.sec.draws = d.sec.draws + 6 ∧ t.dev.ten = d.ten ∧ t.dev.port = { d.port with interp := none }
          ∧ t.dev.mem = d.mem ∧ t.dev.fab = d.fab)
      ∧ (s.serves 0x05 p → p.words.length = 4 → d.pwr.state ≠ .listen → d.ten.state = .open_ → p.w 2 = BitVec.ofNat 64 d.ten.id →
          d.ten.id < 2 ^ 32 → d.tenantBusy = false →
          ∃ t, exec .tenantClose s = .next t ∧ s.sameClock t ∧ t.dev.ten.state = .scrubbing ∧ t.dev.ten.key = none
            ∧ t.dev.ten.scrubAt = s.now ∧ t.dev.ten.scrubId = some p.id ∧ (∀ c, t.dev.ten.contexts.get false c = false)
            ∧ (∀ slot, t.dev.alloc? slot = none) ∧ t.dev.ten.weaves = [] ∧ t.dev.ten.streams = [] ∧ t.dev.ten.seqs = [])
      ∧ (d.scrubRuns = true → ∃ t, exec .scrubComplete s = .next t ∧ s.sameClock t ∧ t.dev.ten.state = .closed
            ∧ t.dev.ten.key = none ∧ t.dev.mem.bytes = [] ∧ t.dev.fab.cores = [] ∧ t.dev.pwr = d.pwr)
      ∧ (d.scrubRuns = false → exec .scrubComplete s = .next s)
      ∧ (∀ c, 0 < c → c < 256 → s.serves 0x06 p → p.words.length = 4 → p.w 2 = BitVec.ofNat 64 c → p.id.ctx ≠ c →
          d.ten.state = .open_ → d.ten.contexts.get false c = false →
          ∃ t, exec .contextOpen s = .next t ∧ s.answered t p 0 [] ∧ s.sameClock t ∧ t.dev.ten.contexts.get false c = true
            ∧ (∀ e, e ≠ c → t.dev.ten.contexts.get false e = d.ten.contexts.get false e)
            ∧ (∀ tag < 4096, t.dev.port.tags.get {} (tagKey c tag) = {}) ∧ t.dev.mem = d.mem)
      ∧ (∀ c, 0 < c → c < 256 → s.serves 0x07 p → p.words.length = 4 → p.w 2 = BitVec.ofNat 64 c →
          d.ten.contexts.get false c = true → d.ctxBusy c = false →
          ∃ t, exec .contextClose s = .next t ∧ s.sameClock t ∧ t.dev.ten.contexts.get false c = false
            ∧ (∀ e, e ≠ c → t.dev.ten.contexts.get false e = d.ten.contexts.get false e)
            ∧ (∃ n, replyWords p.id 0 s.now n [] ∈ t.dev.port.replies) ∧ t.dev.ten.allocs = d.ten.allocs ∧ t.dev.mem = d.mem)
      ∧ (let kind := (p.w 2).toNat
          let pub := pointOf (wordsBytes ((p.words.drop 4).take 12))
          let zero (n l : Nat) : Prop := ∀ x ∈ (p.words.drop n).take l, x = 0
          let new := d.keyStore.enrol kind (p.w 3) pub (wordsBytes ((p.words.drop 16).take 5)) (wordAt (auth 21) 0).toNat
          ∀ k, s.serves 0x78 p → p.words.length = 35 → kind ≤ 2 → (kind = 0 ↔ p.w 3 = 0) → (kind = 2 → zero 4 12) → (kind ≠ 1 → zero 16 5) →
            (kind = 2 → d.keyStore.hasKin (p.w 3).toNat = true) → d.sec.entropyReady = true →
            d.pwr.state ≠ .listen → (kind = 1 → d.keyStore.kin.length < 32) → (kind ≠ 0 → d.kinInUse (p.w 3).toNat = false) →
            (kind ≠ 2 → ecOnCurve pub.1 pub.2 = true) → (if kind = 0 ∧ d.keyStore.owner = none then zero 21 13 else d.keyStore.authorises 0x78 ((p.words.drop 2).take 19) (auth 21) = true) →
            quiet → new = some k →
            ∃ t w, exec .kinEnrol s = .next t ∧ s.sameClock t ∧ t.dev.peat.waits = d.peat.waits ++ [w] ∧ w.id = p.id
              ∧ w.ks = some { k with tenant := none } ∧ w.words = [p.w 3, BitVec.ofNat 64 (32 - k.kin.length)] ∧ t.dev.ten = d.ten)

/-- ENTROPY_GET of 1 to 512 words from a ready source is answered OK with the next outputs of the DRBG, which
advances by as many; from a source that is not ready NOT_READY_ENTROPY. A start-up whose 4,096 samples have
passed makes the source ready and reseeds; a failed one starts again, and the third in a row leaves the source
failed; ENTROPY_RETRY starts again 1 s after. HEALTH_TEST_FAIL of a ready source ends readiness and starts
again, and no key-store write is left under way. DRBG_RESEED records a reseed once 1 ms has passed since the
last. Otherwise they change nothing. -/
def Obligations.EntropyResult : Prop :=
  ∀ (s : State),
    let sec := s.dev.sec
    let put (x : Sec) : Host.Outcome State Fault Refusal := .next { s with dev := { s.dev with sec := x } }
    (∀ (p : Packet) (n : Nat), s.serves 0x79 p → p.w 1 = 0 → (p.w 0).toNat % 2 ^ 12 = 0 → p.words.length = 4 → 0 < n → n ≤ 512 →
      p.w 2 = BitVec.ofNat 64 n →
      (sec.entropyReady = true → ∃ t, exec .entropyGet s = .next t
          ∧ s.answered t p 0 ((List.range n).map fun i => Config.drbg (sec.draws + i)) ∧ t.dev.sec.draws = sec.draws + n
          ∧ s.sameClock t ∧ t.dev.ten = s.dev.ten ∧ t.dev.mem = s.dev.mem)
        ∧ (sec.entropyReady = false → ∃ t, exec .entropyGet s = .next t ∧ s.onlyAnswered t p 0x0102 []))
      ∧ (∀ at_, sec.startAt = some at_ → at_ + 4096000 ≤ s.now →
          (sec.seeded = true → exec (.entropyStartupDone true) s =
              put { sec with entropyReady := true, startAt := none, fails := 0, failed := false, reseedAt := s.now })
            ∧ (sec.seeded = false → ∃ t, exec (.entropyStartupDone true) s = .next t
                ∧ t.dev.sec = { sec with entropyReady := true, seeded := true, startAt := none, fails := 0, failed := false
                                         reseedAt := s.now, draws := sec.draws + 4 }
                ∧ (t.dev.halfDram 0).gen128 = Config.drbg (sec.draws + 1) ++ Config.drbg sec.draws)
            ∧ (sec.fails < 2 → exec (.entropyStartupDone false) s = put { sec with fails := sec.fails + 1, startAt := some s.now })
            ∧ (2 ≤ sec.fails → exec (.entropyStartupDone false) s =
                put { sec with fails := sec.fails + 1, failed := true, failedAt := s.now, startAt := none }))
      ∧ (∀ ok, (sec.startAt = none ∨ ∃ t, sec.startAt = some t ∧ s.now < t + 4096000) → exec (.entropyStartupDone ok) s = .next s)
      ∧ (sec.failed = true → sec.startAt = none → sec.failedAt + 1000000000 ≤ s.now →
          exec .entropyRetry s = put { sec with startAt := some s.now })
      ∧ (sec.failed = false → exec .entropyRetry s = .next s)
      ∧ (sec.entropyReady = true → ∃ t, exec .healthTestFail s = .next t ∧ s.sameClock t
          ∧ t.dev.sec = { sec with entropyReady := false, startAt := some s.now } ∧ (∀ w ∈ t.dev.peat.waits, w.ks = none)
          ∧ t.dev.ten = s.dev.ten ∧ t.dev.mem = s.dev.mem)
      ∧ (sec.entropyReady = false → exec .healthTestFail s = .next s)
      ∧ (sec.entropyReady = true → sec.reseedAt + 1000000 ≤ s.now → exec .drbgReseed s = put { sec with reseedAt := s.now })
      ∧ ((sec.entropyReady = false ∨ s.now < sec.reseedAt + 1000000) → exec .drbgReseed s = .next s)

/-- ALLOC of 1 to 4,194,302 pages with flags that R170 admits, capacity at the home it asks for, a free run of
page numbers and a free handle, in RUN or HUSH: an allocation of those pages and flags stands in the lowest free
slot under the tenant's next generation, its pages and the guard page after them apart from those of every other
allocation, and the reply gives its handle, base address and home; the bytes of memory and every other
allocation stay (a pinned one takes frames from the cache). FREE of a live allocation that is not attached,
planned, migrating or a weave's source: without SCRUB_ON_FREE its handle names nothing any more and its bytes
are gone, every other byte staying, and the reply gives its pages; with SCRUB_ON_FREE the handle is stale at
once, and FREE_ZERO_DONE, once every write of the zeroing has been granted and not before, ends it and answers.
A stale handle is answered STALE_GEN. -/
def Obligations.AllocFreeResult : Prop :=
  ∀ (s : State) (p : Packet), p.w 1 = 0 → (p.w 0).toNat % 2 ^ 12 = 0 → s.dev.pwr.state ≠ .listen →
    let d := s.dev
    let outside (a : Alloc) (x : Nat) : Prop := x < a.p0 * 65536 ∨ (a.p0 + a.pages) * 65536 ≤ x
    (∀ pages home p0, s.serves 0x10 p → p.words.length = 5 → p.w 2 = BitVec.ofNat 64 pages → pages < 2 ^ 22 →
        flagsBad (p.w 3) pages true = false → d.homeOf (p.w 3) pages = some home → freeRun d.allocs pages = some p0 →
        d.allocs.length < 65536 →
        (flagPin (p.w 3) = true → d.framesUsed (halfNum (flagHalf (p.w 3))) + pages ≤ 768) →
        let slot := firstGap d.ten.allocs 0
        let a : Alloc := ⟨d.ten.allocGen, p0, pages, p.w 3, home, none, false, 0, none, [], [], none⟩
        ∃ t, exec .alloc s = .next t
          ∧ s.answered t p 0 [handleWord slot a.gen, BitVec.ofNat 64 a.base, mkWord [(if home then 1 else 0, 0), (halfNum (flagHalf (p.w 3)), 2)]]
          ∧ t.dev.alloc? slot = some a ∧ (∀ x, x ≠ slot → t.dev.alloc? x = d.alloc? x)
          ∧ (∀ e ∈ d.allocs, p0 + pages < e.2.p0 ∨ e.2.p0 + e.2.pages < p0)
          ∧ t.dev.ten.allocGen = (d.ten.allocGen + 1) % 256 ∧ (flagPin (p.w 3) = false → t.dev.mem = d.mem)
          ∧ t.dev.mem.bytes = d.mem.bytes ∧ t.dev.fab = d.fab ∧ s.sameClock t)
      ∧ (∀ a, s.serves 0x11 p → p.words.length = 4 → (p.w 2).toNat < 2 ^ 32 → (p.w 2).toNat / 2 ^ 16 % 2 ^ 8 = 0 →
          d.byHandle (p.w 2) = some a →
          let slot := handleSlot (p.w 2)
          d.isAttached slot = false → a.plan = none → a.migrating = none → d.isSource slot = false →
          (flagScrub a.flags = false → ∃ t n, exec .free s = .next t ∧ s.sameClock t ∧ t.dev.alloc? slot = none
              ∧ replyWords p.id 0 s.now n [BitVec.ofNat 64 a.pages] ∈ t.dev.port.replies
              ∧ (∀ x, outside a x → t.dev.mem.bytes.get 0 x = d.mem.bytes.get 0 x)
              ∧ (∀ x, ¬ outside a x → t.dev.mem.bytes.get 0 x = 0)
              ∧ (∀ x, x ≠ slot → t.dev.alloc? x = d.alloc? x))
            ∧ (flagScrub a.flags = true → ∃ t, exec .free s = .next t ∧ s.sameClock t ∧ t.dev.byHandle (p.w 2) = none
                ∧ t.dev.alloc? slot = some { a with freeing := some p.id } ∧ t.dev.mem = d.mem ∧ t.dev.port = { d.port with interp := none }))
      ∧ (s.serves 0x11 p → p.words.length = 4 → (p.w 2).toNat < 2 ^ 32 → (p.w 2).toNat / 2 ^ 16 % 2 ^ 8 = 0 →
          d.byHandle (p.w 2) = none → ∃ t, exec .free s = .next t ∧ s.onlyAnswered t p 0x0700 [])
      ∧ ∀ (slot : BitVec 16) a id, d.alloc? slot.toNat = some a → a.freeing = some id → id.epoch = d.port.epoch → s.owes id →
          (d.asking (.zero slot.toNat) = true → exec (.freeZeroDone slot) s = .next s)
          ∧ (d.asking (.zero slot.toNat) = false → ∃ t n, exec (.freeZeroDone slot) s = .next t ∧ s.sameClock t ∧ t.dev.alloc? slot.toNat = none
            ∧ replyWords id 0 s.now n [BitVec.ofNat 64 a.pages] ∈ t.dev.port.replies
            ∧ ∀ x, t.dev.mem.bytes.get 0 x = if a.p0 * 65536 ≤ x ∧ x < (a.p0 + a.pages) * 65536 then 0 else d.mem.bytes.get 0 x)

/-- In RUN or HUSH, on a live handle and a range of whole words inside the allocation: PUT, the allocation
neither migrating nor a weave's source, its fresh peat pages within the staging pages and none of them that the
range covers in part unreadable, stores the data words little-endian from the offset on, every other byte of
memory staying, and is answered OK with the count of words; GET of a readable range, none of its lines on its
way to the mere, is answered OK with its bytes, least significant first, and changes no byte, no allocation, no
core and no partition; while a line is on its way it waits; of a range with an unreadable line or block it is
answered FAULTED with that offset, a plait error being logged; so is a PUT that would have to stage such a page.
A range beyond the allocation is answered BAD_PARAM, and a stale handle STALE_GEN. -/
def Obligations.PutGetResult : Prop :=
  ∀ (s : State) (p : Packet), p.w 1 = 0 → (p.w 0).toNat % 2 ^ 12 = 0 → s.dev.pwr.state ≠ .listen →
    (p.w 2).toNat < 2 ^ 32 → (p.w 2).toNat / 2 ^ 16 % 2 ^ 8 = 0 → (p.w 3).toNat % 8 = 0 →
    let d := s.dev
    let off := (p.w 3).toNat
    (∀ a n, s.serves 0x12 p → 0 < n → p.words.length = 5 + n → d.byHandle (p.w 2) = some a →
        let at_ := a.p0 * 65536 + off
        let fresh := if a.peat then (a.pagesOf off (8 * n)).filter fun pg => !d.mem.staged.get false pg else []
        (a.bytes < off + 8 * n → ∃ t, exec .put s = .next t ∧ s.onlyAnswered t p 0x0600 [])
          ∧ (off + 8 * n ≤ a.bytes → a.migrating = none → d.isSource (handleSlot (p.w 2)) = false →
              d.staged (halfNum (flagHalf a.flags)) + fresh.length ≤ 512 →
              d.stageBad a off (8 * n) fresh = none →
              ∃ t, exec .put s = .next t ∧ s.answered t p 0 [BitVec.ofNat 64 n] ∧ s.sameClock t
                ∧ (∀ x, t.dev.mem.bytes.get 0 x = if at_ ≤ x ∧ x < at_ + 8 * n then
                      (wordAt p.words (4 + (x - at_) / 8)).extractLsb' (8 * ((x - at_) % 8)) 8 else d.mem.bytes.get 0 x)
                ∧ t.dev.ten = d.ten ∧ t.dev.fab = d.fab ∧ t.dev.parts = d.parts
                ∧ (∀ pg ∈ fresh, t.dev.mem.staged.get false pg = true))
          ∧ (off + 8 * n ≤ a.bytes → a.migrating = none → d.isSource (handleSlot (p.w 2)) = false →
              d.staged (halfNum (flagHalf a.flags)) + fresh.length ≤ 512 → ∀ u, d.stageBad a off (8 * n) fresh = some u →
              ∃ t, exec .put s = .next t ∧ s.answered t p 0x0300 [BitVec.ofNat 64 u.off] ∧ s.sameClock t ∧ t.dev.mem = d.mem))
      ∧ (∀ a n, s.serves 0x13 p → p.words.length = 6 → 0 < n → n ≤ 1048571 → p.w 4 = BitVec.ofNat 64 n → d.byHandle (p.w 2) = some a →
          let waits : Bool := (a.pagesOf off (8 * n)).any fun pg =>
            let x := a.part off (8 * n) pg
            d.filling pg (rangeFrom (x.1 / 128) ((x.2 - 1) / 128 - x.1 / 128 + 1))
          (off + 8 * n ≤ a.bytes → waits = true → exec .get s = .next s)
            ∧ (off + 8 * n ≤ a.bytes → waits = false → d.firstBad a off (8 * n) = none → ∃ t rs, exec .get s = .next t ∧ s.answered t p 0 rs
              ∧ s.sameClock t ∧ t.dev.mem.bytes = d.mem.bytes ∧ t.dev.ten = d.ten ∧ t.dev.fab = d.fab ∧ t.dev.parts = d.parts ∧ rs.length = n
              ∧ ∀ i < n, ∀ j < 8, (wordAt rs i).extractLsb' (8 * j) 8 = d.mem.bytes.get 0 (a.p0 * 65536 + off + 8 * i + j))
            ∧ (∀ b, off + 8 * n ≤ a.bytes → waits = false → d.firstBad a off (8 * n) = some b →
                ∃ t, exec .get s = .next t ∧ s.answered t p 0x0300 [BitVec.ofNat 64 b.off] ∧ s.sameClock t ∧ t.dev.mem = d.mem
                  ∧ ∀ at_ folded block, b = .plait at_ folded block → ∃ e, t.dev.aon.log.getLast? = some e ∧ e.code = fcPlaitError)
            ∧ (a.bytes < off + 8 * n → ∃ t, exec .get s = .next t ∧ s.onlyAnswered t p 0x0600 []))
      ∧ (s.serves 0x13 p → p.words.length = 6 → p.w 4 = 1 → d.byHandle (p.w 2) = none →
          ∃ t, exec .get s = .next t ∧ s.onlyAnswered t p 0x0700 [])

/-- In RUN or HUSH, on a live handle of an allocation that is not migrating: FLUSH with no page marked is
answered OK with 0; with pages marked it takes them down and owes its reply, and FLUSH_DONE of an allocation at
home in DRAM, its transfers granted, clears the bits and the dirty lines of those that nothing has written since
and no later FLUSH holds, keeps the bits of the others, changes no byte, and answers OK with their count; at
home in peat it does so once every page is programmed and its records are committed, and those pages are staged
no more. MIGRATE of a READ_ONLY allocation to the home it has is answered OK with 0, to the other, capacity
being there, it owes its reply; MIGRATE_DONE to DRAM, its transfers granted, makes DRAM the home, changes no
byte and answers OK with the pages once every journal record is committed; to peat it does so once every written
page is programmed and its records are committed. An allocation that is not READ_ONLY is answered BAD_PARAM. -/
def Obligations.FlushMigrateResult : Prop :=
  ∀ (s : State),
    let d := s.dev
    (∀ (p : Packet) (a : Alloc), p.w 1 = 0 → (p.w 0).toNat % 2 ^ 12 = 0 → d.pwr.state ≠ .listen →
        (p.w 2).toNat < 2 ^ 32 → (p.w 2).toNat / 2 ^ 16 % 2 ^ 8 = 0 → d.byHandle (p.w 2) = some a → a.migrating = none →
        let slot := handleSlot (p.w 2)
        (s.serves 0x14 p → p.words.length = 4 →
          (d.dirtyOf a = [] → ∃ t, exec .flush s = .next t ∧ s.onlyAnswered t p 0 [0])
            ∧ (d.dirtyOf a ≠ [] → ∃ t, exec .flush s = .next t ∧ s.sameClock t
                ∧ t.dev.mem.bytes = d.mem.bytes ∧ t.dev.mem.dirtyPages = d.mem.dirtyPages ∧ t.dev.mem.staged = d.mem.staged
                ∧ (a.peat = false → t.dev.mem = { d.mem with rewritten := t.dev.mem.rewritten })
                ∧ (∀ pg, t.dev.mem.rewritten.get false pg = (d.mem.rewritten.get false pg && !(d.dirtyOf a).contains pg))
                ∧ t.dev.alloc? slot = some { a with flushes := a.flushes ++ [(d.dirtyOf a, p.id)] }
                ∧ t.dev.port = { d.port with interp := none } ∧ (a.peat = false → t.dev.peat = d.peat)))
          ∧ (∀ to_ : Bool, s.serves 0x15 p → p.words.length = 5 → p.w 3 = (if to_ then 1 else 0) →
              let h := halfNum (flagHalf a.flags)
              (flagReadOnly a.flags = false → ∃ t, exec .migrate s = .next t ∧ s.onlyAnswered t p 0x0600 [])
                ∧ (flagReadOnly a.flags = true → to_ = a.peat → ∃ t, exec .migrate s = .next t ∧ s.onlyAnswered t p 0 [0])
                ∧ (flagReadOnly a.flags = true → to_ = !a.peat →
                    (if to_ then d.peatRoom a.pages && d.dramRoom h (a.pages * 640) else d.dramRoom h (a.pages * 65536)) = true →
                    ∃ t, exec .migrate s = .next t ∧ s.sameClock t ∧ t.dev.mem.bytes = d.mem.bytes
                      ∧ t.dev.alloc? slot = some { a with migrating := some (to_, p.id) } ∧ t.dev.port = { d.port with interp := none })))
      ∧ ∀ (slot : BitVec 16) (a : Alloc) (id : CmdId), d.alloc? slot.toNat = some a → s.owes id →
          let gone (pages : List Nat) (rest : List (List Nat × CmdId)) (pg : Nat) : Bool :=
            pages.contains pg && !d.mem.rewritten.get false pg && !rest.any fun f => f.1.contains pg
          (∀ pages rest, a.flushes = (pages, id) :: rest → a.peat = false →
            (d.asking (.home slot.toNat) = true → exec (.flushDone slot) s = .next s)
            ∧ (d.asking (.home slot.toNat) = false → ∃ t, exec (.flushDone slot) s = .next t
              ∧ s.replied t id 0 [BitVec.ofNat 64 pages.length] ∧ s.sameClock t ∧ t.dev.mem.bytes = d.mem.bytes
              ∧ (∀ pg, t.dev.mem.dirtyPages.get false pg = (d.mem.dirtyPages.get false pg && !gone pages rest pg))
              ∧ (∀ l, t.dev.mem.dirty.get false l = (d.mem.dirty.get false l && !gone pages rest (l / 512)))
              ∧ t.dev.alloc? slot.toNat = some { a with flushes := rest }))
            ∧ (∀ pages rest, a.flushes = (pages, id) :: rest → a.peat = true → (∀ pg ∈ pages, (d.peat.cells.get none pg).isSome = true) →
                d.storedAll slot.toNat pages = true → d.peat.uncommitted (d.peat.cellLpns pages) = false →
                ∃ t, exec (.flushDone slot) s = .next t ∧ s.replied t id 0 [BitVec.ofNat 64 pages.length] ∧ s.sameClock t
                  ∧ t.dev.mem.bytes = d.mem.bytes ∧ t.dev.alloc? slot.toNat = some { a with flushes := rest }
                  ∧ ∀ pg, t.dev.mem.staged.get false pg = (d.mem.staged.get false pg && !gone pages rest pg))
            ∧ (a.migrating = some (false, id) → d.asking (.home slot.toNat) = true → exec (.migrateDone slot) s = .next s)
            ∧ (a.migrating = some (false, id) → d.asking (.home slot.toNat) = false →
                ∃ t, exec (.migrateDone slot) s = .next t ∧ s.sameClock t
                  ∧ t.dev.mem.bytes = d.mem.bytes ∧ t.dev.alloc? slot.toNat = some { a with peat := false, migrating := none, held := [] }
                  ∧ (d.peat.cellsIn a.p0 a.pages = [] → d.peat.appended ≤ d.peat.committed → d.peat.waits = [] →
                      s.replied t id 0 [BitVec.ofNat 64 a.pages])
                  ∧ (d.peat.committed < d.peat.appended → ∃ w ∈ t.dev.peat.waits, w.id = id ∧ w.words = [BitVec.ofNat 64 a.pages]))
            ∧ (let pages := d.writtenPages a
               a.migrating = some (true, id) → (∀ pg ∈ pages, (d.peat.cells.get none pg).isSome = true) →
                  (d.storedAll slot.toNat pages = false → exec (.migrateDone slot) s = .next s)
                  ∧ (d.storedAll slot.toNat pages = true → d.peat.uncommitted (d.peat.cellLpns pages) = false →
                    ∃ t, exec (.migrateDone slot) s = .next t ∧ s.replied t id 0 [BitVec.ofNat 64 a.pages] ∧ s.sameClock t
                      ∧ t.dev.mem.bytes = d.mem.bytes
                      ∧ t.dev.alloc? slot.toNat = some { a with peat := true, migrating := none, held := d.openIds }))
            ∧ (a.migrating = none → exec (.migrateDone slot) s = .next s) ∧ (a.flushes = [] → exec (.flushDone slot) s = .next s)

/-- In RUN: WEAVE_LOAD from a live allocation, a weave slot being free, whose image is readable, well formed,
known to a kin set, signed by the owner and opens, puts the parsed weave with its content key in the lowest free
slot under the tenant's next weave generation and answers OK with its handle; one that opens with no enrolled
kin set, or with a content page whose tag fails, is answered DENIED. WEAVE_BIND of a loaded weave without
attachments to a defined partition in service whose bundles and mode are the weave's, frames, knots and capacity
being there, binds it, makes its plan allocations and answers OK with their handles and addresses. WEAVE_DROP of
a weave with no work, stream or sequence unbinds it and, with UNLOAD, frees its slot. -/
def Obligations.WeaveCommandResult : Prop :=
  ∀ (s : State) (p : Packet), p.w 1 = 0 → (p.w 0).toNat % 2 ^ 12 = 0 → s.dev.pwr.state = .run →
    let d := s.dev
    let handle (w : Word) : Prop := w.toNat < 2 ^ 32 ∧ w.toNat / 2 ^ 16 % 2 ^ 8 = 0
    (∀ a, s.serves 0x20 p → p.words.length = 5 → p.w 2 = 0 → handle (p.w 3) → d.byHandle (p.w 3) = some a → d.weaves.length < 16 →
        let h := d.readBytes a 0 128
        let x := imgHdr h
        let img := d.readBytes a 0 x.length
        let slot := firstGap d.ten.weaves 0
        d.firstBad a 0 128 = none → x.ok h a.bytes = true → d.firstBad a 0 x.length = none → x.padsOk img = true →
        (∀ key w, contentKey d.keyStore.kin x img = some key → signatureOk d.keyStore.owner img x.sigOff = true →
            parseWeave x img = some w → tagsOk x key img = true →
            ∃ t v rs, exec .weaveLoad s = .next t ∧ s.answered t p 0 (handleWord slot d.ten.weaveGen :: rs) ∧ rs.length = 2 ∧ s.sameClock t
              ∧ t.dev.weave? slot = some v ∧ v.gen = d.ten.weaveGen ∧ v.contents = imgContents x img ∧ v.key = key ∧ v.entries = w.entries ∧ v.sections = w.sections
              ∧ t.dev.ten.weaveGen = (d.ten.weaveGen + 1) % 256 ∧ t.dev.mem = d.mem ∧ t.dev.fab = d.fab)
          ∧ (contentKey d.keyStore.kin x img = none → ∃ t, exec .weaveLoad s = .next t ∧ s.onlyAnswered t p 0x0400 [])
          ∧ (∀ key w, contentKey d.keyStore.kin x img = some key → signatureOk d.keyStore.owner img x.sigOff = true →
            parseWeave x img = some w → tagsOk x key img = false → ∃ t, exec .weaveLoad s = .next t ∧ s.onlyAnswered t p 0x0400 []))
      ∧ (∀ w part, s.serves 0x21 p → p.words.length = 5 → handle (p.w 2) → part < 16 → p.w 3 = BitVec.ofNat 64 part →
          d.weaveByHandle (p.w 2) = some w → w.attach = 0 → d.pwr.handOver = false →
          let slot := handleSlot (p.w 2)
          let q := d.part part
          q.defined = true → q.oos = false → q.weave = none → w.bound = none → w.compat = q.compat → q.bundles = w.bundles →
          d.tableNames (p.w 2) = false → (w.serving.isSome = true → d.servingWeave = none) → d.framesFit w 0 = true → d.framesFit w 1 = true →
          w.knots ≤ (d.freeKnots w.knots).length → ∀ plan e, d.makePlan s.now slot w.allocs = some (plan, e) →
          ∃ t v rs, exec .weaveBind s = .next t ∧ s.answered t p 0 rs ∧ s.sameClock t ∧ rs.length = 2 * plan.length
            ∧ t.dev.weave? slot = some v ∧ v.bound = some part ∧ v.planSlots = plan ∧ v.attSlots = []
            ∧ (t.dev.part part).weave = some slot)
      ∧ (∀ w unload, s.serves 0x22 p → p.words.length = 5 → handle (p.w 2) → p.w 3 = (if unload then 1 else 0) →
          d.weaveByHandle (p.w 2) = some w →
          let slot := handleSlot (p.w 2)
          d.tableNames (p.w 2) = false → d.weaveBusy slot w = false →
          ∃ t n, exec .weaveDrop s = .next t ∧ s.sameClock t ∧ replyWords p.id 0 s.now n [] ∈ t.dev.port.replies
            ∧ (unload = true → t.dev.weave? slot = none)
            ∧ (unload = false → ∃ v, t.dev.weave? slot = some v ∧ v.bound = none ∧ v.gen = w.gen)
            ∧ ∀ q, w.bound = some q → (t.dev.part q).weave = none)

/-- RUN of an entry of a bound weave that exists, is for RUN and takes the argument words, work not being
refused: where the demand test places the item it stands last among the partition's items with that due, and the
command is answered ACCEPTED with the due, its tag staying busy; with QUERY_ONLY the answer is the same, nothing
is admitted and the tag is free; where the test refuses, REFUSED_LOAD with the earliest due, nothing else
changing; a partition that holds no item refuses none that asks no due. STREAM_STEP and DECIDE of an open stream
join the run that R140 names, as a further member, or form one of their own in the same way. STREAM_OPEN of a
free identifier in a class with a free row puts the stream there, fresh, under the next stream generation;
STREAM_CLOSE of a stream with no unanswered step removes it. -/
def Obligations.WorkCommandResult : Prop :=
  ∀ (s : State) (p : Packet), s.dev.pwr.state = .run →
    let d := s.dev
    let flags := (p.w 0).toNat % 2 ^ 12
    let lastReply (t : State) (status time : Nat) (rs : List Word) : Prop :=
      ∃ n, t.dev.port.replies.getLast? = some (replyWords p.id status time n rs)
    let tagFree (t : State) : Prop := (t.dev.port.tags.get {} (tagKey p.id.ctx p.id.tag)).busy = false
    let refused (t : State) (early : Nat) : Prop := t = { s with dev := { s.dev with port := t.dev.port } } ∧ lastReply t 0x0100 early [] ∧ tagFree t
    let asked (t : State) (due : Nat) : Prop := t = { s with dev := { s.dev with port := t.dev.port } } ∧ lastReply t 0x0001 due [] ∧ tagFree t
    let admitted (t : State) (part due : Nat) (items : List Item) : Prop :=
      s.sameClock t ∧ (t.dev.part part).items = items ∧ lastReply t 0x0001 due []
        ∧ t.dev.mem = d.mem ∧ t.dev.ten = d.ten ∧ t.dev.port.tags = d.port.tags
    (∀ w part e, s.holds 0x30 p → flags < 4 → 4 ≤ p.words.length → (p.w 2).toNat < 2 ^ 48 → (p.w 2).toNat / 2 ^ 16 % 2 ^ 8 = 0 →
        d.weaveByHandle (p.w 2) = some w → w.bound = some part → d.workRefused part = false →
        let entry := (p.w 2).toNat / 2 ^ 32
        let args := (p.words.drop 3).take (p.words.length - 4)
        w.entries[entry]? = some e → e.kind = 0 → args.length ≤ e.argWords →
        let x := w.wcet.getD entry ⟨0, 0, 0, 0, []⟩
        let m := d.memTerm w x 1
        let it := (d.part part).newItem .run (handleSlot (p.w 2)) entry (x.wF + x.wP) m.1 m.2 p.tight (d.below part)
          [⟨p.id, p.tAdmit, 0, args, 0, 1, 0, false, false⟩]
        let r := d.place s.now part it (p.w 1).toNat (d.a0 p part) 0
        (r.1 = true → flags / 2 = 0 → ∃ t, exec .run s = .next t ∧ admitted t part r.2 ((d.part part).items ++ [{ it with d := r.2 }]))
          ∧ (r.1 = true → flags / 2 = 1 → ∃ t, exec .run s = .next t ∧ asked t r.2)
          ∧ (r.1 = false → ∃ t, exec .run s = .next t ∧ refused t r.2)
          ∧ ((d.part part).allItems = [] → p.w 1 = 0 → r.1 = true))
      ∧ (∀ (dec : Bool) x w part c,
          let id := (p.w 2).toNat % 2 ^ 24
          let k := (p.w 3).toNat
          let top := if dec then k / 2 ^ 14 % 2 ^ 4 else 0
          let own : Prop := if dec then
              (p.w 2).toNat < 2 ^ 32 ∧ k < 2 ^ 18 ∧ 1 ≤ top ∧ top ≤ 8 ∧ p.words.length = 5 + k / 2 ^ 8 % 2 ^ 6 + (k % 2 ^ 8 + 1) / 2
                ∧ (k % 2 = 1 → (p.w (p.words.length - 2)).toNat < 2 ^ 32)
                ∧ c.decision = true ∧ k % 2 ^ 8 ≤ c.gMax ∧ k / 2 ^ 8 % 2 ^ 6 = c.feats
            else (p.w 2).toNat < 2 ^ 48 ∧ p.words.length = 4 + (p.w 2).toNat / 2 ^ 32 ∧ (p.w 2).toNat / 2 ^ 32 ≤ c.stepWords
          let step := exec (if dec then .decide else .streamStep) s
          let kind := ItemKind.cls x.cls dec
          let m : Member := ⟨p.id, p.tAdmit, id, p.body, top, 1, 0, false, false⟩
          s.holds (if dec then 0x38 else 0x41) p → flags < 4 → d.stream? id = some x → x.gen = (p.w 2).toNat / 2 ^ 24 % 2 ^ 8 →
          d.streamHome x = some (w, part, c) → own → d.workRefused part = false →
          let q := d.part part
          let join := latestItem (q.items.filter fun it => it.joinable kind x.weave p.tight c.bMax id (p.w 1).toNat (q.stepsOf id))
          (∀ it, join = some it → flags / 2 = 0 → ∃ t, step = .next t ∧
              admitted t part it.d (q.items.map fun j => if j.seq = it.seq then { j with members := j.members ++ [m] } else j))
            ∧ (join = none →
                let entry := if dec then c.decEntry else c.stepEntry
                let z := w.wcet.getD entry ⟨0, 0, 0, 0, []⟩
                let mt := d.memTerm w z c.bMax
                let it := q.newItem kind x.weave entry (z.wF + z.wP * c.bMax) mt.1 mt.2 p.tight (d.below part) [m]
                let r := d.place s.now part it (p.w 1).toNat (d.a0 p part) ((((q.stepsOf id).map (·.d)).max?).getD 0)
                (r.1 = true → flags / 2 = 0 → ∃ t, step = .next t ∧ admitted t part r.2 (q.items ++ [{ it with d := r.2 }]))
                  ∧ (r.1 = true → flags / 2 = 1 → ∃ t, step = .next t ∧ asked t r.2)
                  ∧ (r.1 = false → ∃ t, step = .next t ∧ refused t r.2)))
      ∧ (∀ w c row first, s.serves 0x40 p → p.w 1 = 0 → flags = 0 → p.words.length = 5 → (p.w 2).toNat < 2 ^ 28 → (p.w 3).toNat < 2 ^ 32 →
          (p.w 3).toNat / 2 ^ 16 % 2 ^ 8 = 0 →
          let id := (p.w 2).toNat % 2 ^ 24
          let cls := (p.w 2).toNat / 2 ^ 24
          id ≠ 0xFFFFFF → d.stream? id = none → d.weaveByHandle (p.w 3) = some w → w.bound.isSome = true → w.classes[cls]? = some c →
          d.freeRow (handleSlot (p.w 3)) c = some (row, first) →
          let x : Stream := ⟨d.ten.streamGen, row, first, c.width, cls, false, true, 0, handleSlot (p.w 3)⟩
          ∃ t, exec .streamOpen s = .next t ∧ s.answered t p 0 (x.words id) ∧ t.dev.stream? id = some x ∧ s.sameClock t
            ∧ t.dev.ten.streamGen = (d.ten.streamGen + 1) % 256 ∧ (∀ j, j ≠ id → t.dev.stream? j = d.stream? j) ∧ t.dev.mem = d.mem)
      ∧ ∀ x, s.serves 0x42 p → p.w 1 = 0 → flags = 0 → p.words.length = 4 → (p.w 2).toNat < 2 ^ 32 →
          let id := (p.w 2).toNat % 2 ^ 24
          d.stream? id = some x → x.gen = (p.w 2).toNat / 2 ^ 24 → (∀ i < 16, (d.part i).stepsOf id = []) →
          ∃ t, exec .streamClose s = .next t ∧ s.answered t p 0 (x.words id) ∧ t.dev.stream? id = none ∧ s.sameClock t
            ∧ (∀ j, j ≠ id → t.dev.stream? j = d.stream? j) ∧ t.dev.mem = d.mem

/-- With a serving weave bound: SEQ_OPEN of an identifier not in use, a slot being free, puts an idle, empty
sequence in the lowest free slot, in the half with the more unreserved frames (half 0 on equal counts), under
the next sequence generation. SEQ_FEED of an idle sequence that is not lost, within the context and frames,
asking no due of a partition that holds no item, of at most 1,024 steps, is ACCEPTED: the sequence is feeding
with its prompt, its tokens to generate and the next feed order. SEQ_CLOSE of a sequence that is not feeding
frees its slot and answers its reserved frames. QUERY_DUE and CANCEL of a command that is not outstanding report
0; of an outstanding one that is no work command 3; QUERY_DUE of work reports its state, flags, partition and
due; CANCEL of a queued RUN withdraws it, answers it REFUSED_STATE with CANCELLED first, and reports 1; of a
running RUN it reports 2. -/
def Obligations.SequenceCommandResult : Prop :=
  ∀ (s : State) (p : Packet),
    let d := s.dev
    let flags := (p.w 0).toNat % 2 ^ 12
    let id := (p.w 2).toNat % 2 ^ 24
    (∀ slotW w x i, s.serves 0x48 p → p.w 1 = 0 → flags = 0 → p.words.length = 4 → (p.w 2).toNat < 2 ^ 24 → id ≠ 0xFFFFFF →
        d.pwr.state ≠ .listen → d.seqSlot id = none → d.servingWeave = some (slotW, w) → w.serving = some x → i < 256 →
        (d.seq i).phase = 0 → (∀ j < i, (d.seq j).phase ≠ 0) →
        let q : Seqn := { id := id, gen := d.ten.seqGen, phase := 1
                          half := decide (d.unreservedFrames x false < d.unreservedFrames x true) }
        ∃ t, exec .seqOpen s = .next t ∧ s.answered t p 0 q.words ∧ t.dev.seq i = q ∧ t.dev.ten.seqGen = (d.ten.seqGen + 1) % 256
          ∧ (∀ j, j ≠ i → t.dev.seq j = d.seq j) ∧ s.sameClock t ∧ t.dev.mem = d.mem)
      ∧ (∀ slot, s.serves 0x4A p → p.w 1 = 0 → flags = 0 → p.words.length = 4 → (p.w 2).toNat < 2 ^ 32 → d.pwr.state ≠ .listen →
          d.seqSlot id = some slot → (d.seq slot).gen = (p.w 2).toNat / 2 ^ 24 → (d.seq slot).phase ≠ 2 →
          ∃ t, exec .seqClose s = .next t ∧ s.answered t p 0 [BitVec.ofNat 64 (d.seq slot).reserved] ∧ t.dev.seq slot = {}
            ∧ (∀ j, j ≠ slot → t.dev.seq j = d.seq j) ∧ s.sameClock t ∧ t.dev.mem = d.mem)
      ∧ (∀ slot slotW w x part n gen,
          let q := d.seq slot
          let total := n + if q.pending then 1 else 0
          s.holds 0x49 p → flags < 2 → p.w 1 = 0 → p.words.length = 5 + (n + 1) / 2 → (p.w 2).toNat < 2 ^ 32 →
          n < 2 ^ 18 → gen ≤ 512 → (p.w 3).toNat % 2 ^ 32 = n + gen * 2 ^ 18 → 0 < n + gen → 0 < total →
          (n % 2 = 1 → (p.w (p.words.length - 2)).toNat < 2 ^ 32) →
          d.seqSlot id = some slot → q.gen = (p.w 2).toNat / 2 ^ 24 → q.phase = 1 → q.lost = false →
          d.servingWeave = some (slotW, w) → w.serving = some x → w.bound = some part → d.pwr.state = .run → d.workRefused part = false →
          q.length + total + gen ≤ x.ctxMax → (∀ f ∈ feedSteps q.length x.chunk total gen, f.kv ≤ x.kvPages) →
          (q.length + total + gen + 255) / 256 - q.reserved ≤ d.unreservedFrames x q.half →
          (d.part part).allItems = [] → (feedSteps q.length x.chunk total gen).length ≤ 1024 →
          ∃ t due k, exec .seqFeed s = .next t ∧ s.sameClock t ∧ t.dev.port.replies.getLast? = some (replyWords p.id 0x0001 due k [])
            ∧ (t.dev.seq slot).phase = 2 ∧ (t.dev.seq slot).feed = some p.id ∧ (t.dev.seq slot).promptLeft = total
            ∧ (t.dev.seq slot).genLeft = gen ∧ (t.dev.seq slot).feedOrder = d.ten.feedOrder + 1
            ∧ (∀ j, j ≠ slot → t.dev.seq j = d.seq j) ∧ t.dev.mem = d.mem ∧ t.dev.port.tags = d.port.tags)
      ∧ (p.w 1 = 0 → flags = 0 → p.words.length = 4 → (p.w 2).toNat < 2 ^ 16 →
          let tag := (p.w 2).toNat % 2 ^ 12
          let gen := (p.w 2).toNat / 2 ^ 12
          let ctx := p.id.ctx
          (s.serves 0x31 p →
            (d.outstanding ctx tag gen = false → ∃ t, exec .queryDue s = .next t ∧ s.onlyAnswered t p 0 [0, 0])
              ∧ (d.outstanding ctx tag gen = true → d.workPart ctx tag gen = none → ∃ t, exec .queryDue s = .next t ∧ s.onlyAnswered t p 0 [3, 0])
              ∧ (∀ n it, d.outstanding ctx tag gen = true → d.workPart ctx tag gen = some n →
                  latestItem ((d.part n).allItems.filter fun it => it.holds ctx tag gen) = some it →
                  ∃ t, exec .queryDue s = .next t ∧ s.onlyAnswered t p 0
                    [mkWord [(if (d.part n).running.any fun r => r.item.holds ctx tag gen then 2 else 1, 0), (if it.exposed then 1 else 0, 2),
                      (if it.tight then 1 else 0, 3), (n, 8)], BitVec.ofNat 64 it.d]))
            ∧ (s.serves 0x32 p →
                (d.outstanding ctx tag gen = false → ∃ t, exec .cancel s = .next t ∧ s.onlyAnswered t p 0 [0])
                  ∧ (d.outstanding ctx tag gen = true → d.workPart ctx tag gen = none → ∃ t, exec .cancel s = .next t ∧ s.onlyAnswered t p 0 [3])
                  ∧ (∀ n r, d.outstanding ctx tag gen = true → d.workPart ctx tag gen = some n → (d.part n).running = some r →
                      r.item.holds ctx tag gen = true → r.item.kind ≠ .serve → ∃ t, exec .cancel s = .next t ∧ s.onlyAnswered t p 0 [2])
                  ∧ ∀ n it m l, d.outstanding ctx tag gen = true → d.workPart ctx tag gen = some n → (d.part n).running = none →
                      (d.part n).items = it :: l → it.kind = .run → it.members = [m] → m.of ctx tag gen = true → m.id.epoch = d.port.epoch →
                      m.id.op = 0x30 →
                      ∃ t, exec .cancel s = .next t ∧ s.sameClock t
                        ∧ t.dev.port.replies = d.port.replies ++ [replyWords m.id 0x0101 s.now d.port.rseq [mkWord [(1, 63)]],
                            replyWords p.id 0 s.now ((d.port.rseq + 1) % 2 ^ 32) [1]]
                        ∧ it ∉ (t.dev.part n).items ∧ t.dev.mem = d.mem ∧ t.dev.ten = d.ten))

/-- ITEM_DISPATCH where nothing is dispatched changes nothing; otherwise the queued item that stands before
every other starts: a RUN whose weave has one section, on its control core, leaves the queue and runs from now
on, its argument words stand in the argument area, and the control core starts at its entry with g1 to g4,
DISPATCH_GEN one on and DEADLINE the due less the reserve; the partition's other cores take no part.
ITEM_COMPLETE, every participating core halted, answers a RUN with its result block, OK or LATE as the due has
passed or not; a class run answers each step with its part of the block, LATE, STATE_RESET or OK, and clears
FRESH; a serving step commits its members; a block that does not fit its members is the fault RESULT_FORMAT.
WATCHDOG_EXPIRE at the limit or later is the fault WATCHDOG, before it nothing. A program window is entered
where a program or erase has waited 10 ms and the previous window opened 40 ms ago or earlier, opens where the
demand tests hold with it, and closes 12 ms after it opened, an erase under way being ended and queued first. -/
def Obligations.ItemResult : Prop :=
  ∀ (s : State) (p : PartId),
    let d := s.dev
    let n := p.toNat
    let q := d.part n
    (d.dispatches n = false ∨ q.items = [] → exec (.itemDispatch p) s = .next s)
      ∧ (∀ it w x e, d.dispatches n = true → it ∈ q.items → (∀ j ∈ q.items, j ≠ it → it.before j = true ∧ j.before it = false) →
          it.kind = .run → (it.waitRaise = true → d.below n = false) → d.weave? it.weave = some w → w.sections = [x] →
          x.core = w.control → w.control ∈ q.cores → w.entries[it.entry]? = some e → (d.core w.control).run ≠ .faulted →
          let k := d.core w.control
          let args := it.members.flatMap Member.data
          let pool := k.pool.setList 0 e.argOff (wordsBytes (args.take ((poolBytes - e.argOff) / 8)))
          let pc := pool.rdLe (x.entryTab + 4 * it.entry) 4
          pc ≠ 0xFFFFFFFF →
          ∃ t r, exec (.itemDispatch p) s = .next t
            ∧ t = { s with dev := { s.dev with fab := t.dev.fab, parts := t.dev.parts } }
            ∧ t.dev.part n = { q with items := q.items.filter (fun j => j.seq ≠ it.seq), running := some r }
            ∧ (∀ m, m ≠ n → t.dev.part m = d.part m)
            ∧ r.item = it ∧ r.at_ = s.now
            ∧ (let c := t.dev.core w.control
               c.run = .running ∧ c.pc = pc ∧ c.part = true ∧ c.control = true ∧ c.entry = it.entry ∧ c.gen = (k.gen + 1) % 256
                ∧ c.deadline = lstOf s.now (it.d - it.x) ∧ c.pool = pool
                ∧ c.g.get 0 1 = BitVec.ofNat 32 it.entry ∧ c.g.get 0 2 = BitVec.ofNat 32 e.argOff ∧ c.g.get 0 3 = 1
                ∧ c.g.get 0 4 = BitVec.ofNat 32 args.length ∧ (∀ j, 5 ≤ j → c.g.get 0 j = 0) ∧ c.acc = k.acc ∧ c.sat = k.sat)
            ∧ ∀ c ∈ q.cores, c ≠ w.control → (t.dev.core c).part = false ∧ (t.dev.core c).gen = ((d.core c).gen + 1) % 256
                ∧ (t.dev.core c).control = false ∧ (t.dev.core c).pool = (d.core c).pool)
      ∧ (q.running = none → exec (.itemComplete p) s = .next s ∧ exec (.watchdogExpire p) s = .next s)
      ∧ (∀ r, q.running = some r →
          (d.allHalted n = false ∨ q.reset.isSome = true → exec (.itemComplete p) s = .next s)
            ∧ (s.now < r.limit ∨ q.reset.isSome = true → exec (.watchdogExpire p) s = .next s)
            ∧ (r.limit ≤ s.now → q.reset = none →
                ∃ t, exec (.watchdogExpire p) s = .next t ∧ s.sameClock t ∧ (t.dev.part n).reset.isSome = true
                  ∧ (⟨s.now, 1, 0x0001, mkWord [(n, 0), (fcWatchdog, 16)], 0⟩ : Ev) ∈ t.dev.ev.waiting)
            ∧ ∀ w, d.allHalted n = true → q.reset = none → d.ready = true → d.weave? r.item.weave = some w →
                let block := (d.core w.control).resultBlock
                let late := r.item.d < s.now
                let done (t : State) : Prop := s.sameClock t ∧ t.dev.mem = d.mem ∧ t.dev.fab = d.fab
                  ∧ (t.dev.part n).running = none ∧ (t.dev.part n).items = q.items
                (∀ m, r.item.kind = .run → r.item.members = [m] → d.port.order = [] → m.id.epoch = d.port.epoch →
                    ∃ t, exec (.itemComplete p) s = .next t ∧ done t ∧ t.dev.ten = d.ten
                      ∧ s.replied t m.id (if late then 0x0500 else 0) block)
                  ∧ (∀ cls dec c m x h ws, r.item.kind = .cls cls dec → r.item.members = [m] → d.port.order = [] →
                      m.id.epoch = d.port.epoch → w.classes[cls]? = some c → d.stream? m.key = some x → block = h :: ws →
                      (if dec then h.fld 7 0 else h.fld 15 0) = ws.length → ws.length ≤ (if dec then m.top else c.resWords) →
                      ∃ t, exec (.itemComplete p) s = .next t ∧ done t
                        ∧ s.replied t m.id (if late then 0x0500 else if x.reset then 0x0301 else 0) (h :: ws)
                        ∧ t.dev.stream? m.key = some { x with fresh := false, lastStep := s.now, reset := x.reset && decide late }
                        ∧ ∀ j, j ≠ m.key → t.dev.stream? j = d.stream? j)
                  ∧ (∀ m v, r.item.kind = .serve → r.item.members = [m] → m.sample = true → block = [v] → 2 ≤ (d.seq m.key).genLeft →
                      (d.seq m.key).stop = 0xFFFFFFFF → (d.seq m.key).cancelled = false →
                      let token := (v &&& 0xFFFFFFFF).toNat
                      ∃ t, exec (.itemComplete p) s = .next t ∧ done t ∧ t.dev.port = d.port
                        ∧ (let a := d.seq m.key
                           let b := t.dev.seq m.key
                           b.length = a.length + m.count ∧ b.lastToken = token ∧ b.tokens = a.tokens ++ [token]
                            ∧ b.genLeft = a.genLeft - 1 ∧ b.pending = true ∧ b.phase = a.phase ∧ b.lastStep = s.now)
                        ∧ ∀ j, j ≠ m.key → t.dev.seq j = d.seq j)
                  ∧ (r.item.kind = .serve → block.length ≠ (r.item.members.filter (·.sample)).length →
                      ∃ t, exec (.itemComplete p) s = .next t ∧ s.sameClock t ∧ (t.dev.part n).reset.isSome = true
                        ∧ (⟨s.now, 1, 0x0001, mkWord [(n, 0), (fcResultFormat, 16)], 0⟩ : Ev) ∈ t.dev.ev.waiting))
      ∧ ∀ ch : FlashCh,
          let c := ch.toNat
          let win := d.peat.windows.get .none c
          let put (x : Peat) (y : Window) : Peat := { x with windows := x.windows.set .none c y }
          (d.flashOn = true → d.ready = true → win = .none →
              (((d.peat.queue.get [] c).any fun o => decide (o.since + 10000000 ≤ s.now)) = true →
                  (∀ t, d.peat.lastWindow.get none c = some t → t + 40000000 ≤ s.now) →
                  exec (.programWindowEnter ch) s = .next { s with dev := { d with peat := put d.peat (.pending s.now) } })
                ∧ ((∀ o ∈ d.peat.queue.get [] c, s.now < o.since + 10000000) → exec (.programWindowEnter ch) s = .next s)
                ∧ (∀ t, d.peat.lastWindow.get none c = some t → s.now < t + 40000000 → exec (.programWindowEnter ch) s = .next s))
            ∧ (∀ t0, win = .pending t0 →
                (d.flashOn = true → d.windowFits s.now = true → exec (.programWindowOpen ch) s = .next { s with dev := { d with
                    peat := { put d.peat (.opened s.now) with lastWindow := d.peat.lastWindow.set none c (some s.now) } } })
                  ∧ (d.windowFits s.now = false → exec (.programWindowOpen ch) s = .next s))
            ∧ (∀ t0, win = .opened t0 →
                (s.now < t0 + 12000000 → exec (.programWindowClose ch) s = .next s)
                  ∧ (t0 + 12000000 ≤ s.now →
                      (∀ op, d.peat.busy.get none c = some op → op.kind ≠ .erase) →
                      exec (.programWindowClose ch) s = .next { s with dev := { d with peat := put d.peat .none } })
                  ∧ ∀ op, t0 + 12000000 ≤ s.now → d.peat.busy.get none c = some op → op.kind = .erase →
                      ∃ t, exec (.programWindowClose ch) s = .next t ∧ t = { s with dev := { d with peat := t.dev.peat } }
                        ∧ t.dev.peat.windows.get .none c = .none ∧ t.dev.peat.busy.get none c = none
                        ∧ t.dev.peat.queue.get [] c = op :: d.peat.queue.get [] c
                        ∧ (t.dev.peat.blocks.get {} (physKey op.phys)).interrupted = true)

/-- SCAN of readable operands is queued on the unit asked for, or on the one with fewer scans, unit 0 on equal
counts; SCAN_START takes the scan first in a free unit's queue and raises its requests; SCAN_COMPLETE, its
transfers granted and not before, answers the check value of the stream and the blocks, or FAULTED with the
offset of the first block that cannot be read, and STALE_GEN where the allocation has ended. DIGEST_EPOCH of a
new epoch writes both halves' digests; one that differs from the hub's raises CONFIG_SKEW. DIGEST, DUMP_GET and
SPARE_MAP answer without effect. PARTITION_RESET starts a compute reset without dump or count, or joins the one
that runs. DEVICE_RESET is answered first; the reset begins once that reply has been read or 10 ms have passed:
a warm one keeps memory trained, a FULL one starts over. -/
def Obligations.IntegrityCommandResult : Prop :=
  ∀ (s : State) (p : Packet), p.w 1 = 0 → (p.w 0).toNat % 2 ^ 12 = 0 →
    let d := s.dev
    (∀ a, s.holds 0x68 p → p.words.length = 8 → d.pwr.state ≠ .listen → d.byHandle (p.w 2) = some a →
        let h := (p.w 2).toNat
        let unit := h / 2 ^ 32 % 4
        let alg := h / 2 ^ 34 % 4
        let fold := h / 2 ^ 36
        let off := (p.w 3).toNat
        let len := (p.w 4).toNat
        let stride := (p.w 5).toNat
        h / 2 ^ 16 % 2 ^ 8 = 0 → unit ≠ 3 → alg ≤ 1 → fold ≤ 2 → off % 64 = 0 → len % 64 = 0 → 0 < len → stride % 64 = 0 →
        (p.w 6).toNat < 2 ^ 48 → (fold ≠ 2 → p.w 6 = 0) → off + (len / 64 - 1) * (if stride = 0 then 64 else stride) + 64 ≤ a.bytes →
        ∃ u, exec .scan s = .next { s with dev := { d with
              port := { d.port with interp := none }
              hub := { d.hub with scanQ := d.hub.scanQ.modify [] u (· ++ [⟨p.id, h % 2 ^ 16, a.gen, alg, fold, off, len, stride, (p.w 6).toNat⟩]) } } }
          ∧ (unit = 1 → u = 0) ∧ (unit = 2 → u = 1)
          ∧ (unit = 0 → u = if d.scansQueued 1 < d.scansQueued 0 then 1 else 0))
      ∧ (∀ half : Half,
          let u := b2n half
          (d.hub.scanQ.get [] u = [] ∨ (d.hub.scanRun.get none u).isSome = true → exec (.scanStart half) s = .next s)
            ∧ (∀ x l, d.hub.scanQ.get [] u = x :: l → d.hub.scanRun.get none u = none → d.hubServes = true →
                ∃ t, exec (.scanStart half) s = .next t ∧ t = { s with dev := { d with
                  hub := { d.hub with scanQ := d.hub.scanQ.set [] u l, scanRun := d.hub.scanRun.set none u (some x) }
                  arb := t.dev.arb } })
            ∧ (d.hub.scanRun.get none u = none → exec (.scanComplete half) s = .next s)
            ∧ ∀ x, d.hub.scanRun.get none u = some x → d.hubServes = true → s.owes x.id →
                let free (t : State) : Prop := t.dev.hub.scanRun.get none u = none ∧ t.dev.mem.bytes = d.mem.bytes ∧ s.sameClock t
                (d.asking (.scan u) = true → exec (.scanComplete half) s = .next s) ∧ (d.asking (.scan u) = false →
                (∀ a, d.alloc? x.slot = some a → a.gen = x.allocGen → d.scanBad a x = none →
                    ∃ t, exec (.scanComplete half) s = .next t ∧ free t
                      ∧ s.replied t x.id 0 [BitVec.ofNat 64 (if x.alg = 0 then crc32c (d.scanStream a x) else crc64nvme (d.scanStream a x)),
                        BitVec.ofNat 64 (x.len / 64)])
                  ∧ (∀ a k, d.alloc? x.slot = some a → a.gen = x.allocGen → k < x.len / 64 →
                      (d.firstBad a (x.at_ k) 64).isSome = true → (∀ j < k, d.firstBad a (x.at_ j) 64 = none) →
                      ∃ t, exec (.scanComplete half) s = .next t ∧ free t ∧ s.replied t x.id 0x0300 [BitVec.ofNat 64 (x.at_ k)])
                  ∧ (d.alloc? x.slot = none → ∃ t, exec (.scanComplete half) s = .next t ∧ free t ∧ s.replied t x.id 0x0700 [])))
      ∧ (∀ h0 h1,
          let e := s.now / 1000000000
          let want := d.hub.digWant
          (e ≤ d.hub.digEpoch → exec (.digestEpoch h0 h1) s = .next s)
            ∧ (d.hubServes = true → d.hub.oos = false → d.hub.digEpoch < e →
                exec (.digestEpoch none none) s = .next { s with dev := { d with hub := { d.hub with
                    digEpoch := e, dig0 := want, dig1 := want, digAgree := true } } }
                  ∧ ∀ v, v ≠ want → ∃ t, exec (.digestEpoch none (some v)) s = .next t
                      ∧ t = { s with dev := { d with hub := t.dev.hub, ev := t.dev.ev, aon := t.dev.aon } }
                      ∧ t.dev.hub = { d.hub with digEpoch := e, dig0 := want, dig1 := v, digAgree := false }
                      ∧ t.dev.ev.waiting = d.ev.waiting ++ [⟨s.now, 8, 0x0071, BitVec.ofNat 64 e, 1⟩]
                      ∧ (t.dev.aon.log.getLast?).map (fun r => (r.code, r.a, r.b)) = some (fcConfigSkew, e, 1)))
      ∧ (s.serves 0x69 p → p.words.length = 3 → ∃ t, exec .digest s = .next t
          ∧ s.onlyAnswered t p 0 [BitVec.ofNat 64 d.hub.digEpoch, d.hub.dig0, d.hub.dig1, if d.hub.digAgree then 1 else 0])
      ∧ (∀ first n, s.serves 0x7C p → p.words.length = 4 → p.w 2 = BitVec.ofNat 64 (first + n * 2 ^ 16) → 0 < n → n < 2 ^ 16 →
          first + n ≤ 32768 → first < 2 ^ 15 → ∃ t, exec .dumpGet s = .next t
            ∧ s.onlyAnswered t p 0 ([BitVec.ofNat 64 (d.hub.dumpNumber % 2 ^ 32), BitVec.ofNat 64 d.hub.dumpAt]
                ++ (rangeFrom first n).map d.dumpWord))
      ∧ (s.serves 0x7E p → p.words.length = 3 → ∃ t ws, exec .spareMap s = .next t ∧ s.onlyAnswered t p 0 ws ∧ ws.length = 21
          ∧ (∀ b < 16, ws[b]? = some (mkWord [(d.fab.slotOf b 0, 0), (d.fab.slotOf b 1, 3), (d.fab.slotOf b 2, 6), (d.fab.slotOf b 3, 9),
              (b2n (d.fab.spareUsed.get false b), 12), (b2n (d.fab.degraded.get false b), 13)]))
          ∧ ws[17]? = some (BitVec.ofNat 64 d.fab.knotSpares)
          ∧ ws[18]? = some (mkWord [(d.hub.laneUsed.get 0 0, 0), (d.hub.laneUsed.get 0 1, 2)])
          ∧ ws[19]? = some (BitVec.ofNat 64 d.peat.retiredBlocks))
      ∧ (s.holds 0x7D p → p.words.length = 4 → (p.w 2).toNat < 16 → d.pwr.state ≠ .listen →
          let n := (p.w 2).toNat
          (d.part n).defined = true → (d.part n).oos = false →
          ((d.part n).reset = none → ∃ t k, exec .partitionReset s = .next t ∧ s.sameClock t
              ∧ (t.dev.part n).reset = some ⟨s.now, false, k, [p.id]⟩ ∧ (t.dev.part n).running = none
              ∧ (t.dev.part n).resetTimes = (d.part n).resetTimes ∧ t.dev.hub.dump = d.hub.dump
              ∧ (∀ it ∈ (t.dev.part n).items, it.exposed = true ∧ it.spent = true)
              ∧ ∀ c ∈ (d.part n).cores, (t.dev.core c).run = .halted ∨ (t.dev.core c).run = .faulted)
            ∧ ∀ r, (d.part n).reset = some r → ∃ t, exec .partitionReset s = .next t
                ∧ t = { s with dev := { d with port := { d.port with interp := none }, parts := t.dev.parts } }
                ∧ t.dev.part n = { d.part n with reset := some { r with waits := r.waits ++ [p.id] } }
                ∧ ∀ m, m ≠ n → t.dev.part m = d.part m)
      ∧ (∀ full : Bool, s.serves 0x7F p → p.words.length = 4 → (p.w 2).toNat = 0xA5 + b2n full * 2 ^ 8 → (full = false → d.ten.state ≠ .open_) →
          d.hub.resetAsk = none → ∃ t, exec .deviceReset s = .next t ∧ s.answered t p 0 []
            ∧ t = { s with dev := { d with port := t.dev.port, hub := { d.hub with resetAsk := some (full, p.id, some (s.now, d.port.rseq)) } } })
      ∧ (d.hub.resetAsk = none → exec .deviceResetBegin s = .next s)
      ∧ ∀ full id at_ rseq, d.hub.resetAsk = some (full, id, some (at_, rseq)) →
          ((∃ r ∈ d.port.replies, (wordAt r (r.length - 1)).fld 63 32 = rseq) → id.epoch = d.port.epoch → s.now < at_ + 10000000 →
              exec .deviceResetBegin s = .next s)
            ∧ (at_ + 10000000 ≤ s.now ∨ (∀ r ∈ d.port.replies, (wordAt r (r.length - 1)).fld 63 32 ≠ rseq) → d.ready = true →
                d.hub.oos = false → d.ten.state = .closed →
                ∃ t, exec .deviceResetBegin s = .next t ∧ s.sameClock t ∧ t.dev.aon.devResets = d.aon.devResets ++ [s.now]
                  ∧ t.dev.aon.boot = (if full then .released else .trained) ∧ t.dev.hub.resetting = some full
                  ∧ t.dev.port.fifo = [] ∧ t.dev.port.replies = [] ∧ t.dev.port.epoch = d.port.epoch + 1 ∧ t.dev.fab.cores = []
                  ∧ t.dev.mem = Mem.init ∧ t.dev.peat.pages = d.peat.pages ∧ (full = true → t.dev.dram.trained = false)
                  ∧ (full = false → t.dev.dram.trained = d.dram.trained))

/-- COMPUTE_RESET_COMPLETE before 2.5 ms, or 1.2 ms for a reset charged to STEWARD_LOST, changes nothing. Then
the reset is over: every core of the partition keeps its pool and its thresholds, its dispatch generation is one
on, and its other registers, accumulators and predicates stand at their reset values; its local knots count 0
one generation on; RESET is set on every stream of its weave; a core of another partition that waits for no knot
stays as it is; and a PARTITION_RESET that waits is answered with the exposed items, up to the 255 that the
field holds. A slot that fails the slot test, its bundle's spare unused and sound, is served by the spare from
then on, with SLOT_FAILED. -/
def Obligations.ComputeResetResult : Prop :=
  ∀ (s : State) (p : PartId) (r : Reset),
    let d := s.dev
    let n := p.toNat
    let q := d.part n
    (q.reset = none → ∀ fs, exec (.computeResetComplete p fs) s = .next s)
      ∧ (q.reset = some r → ∀ fs,
          (s.now < r.t0 + (if r.noSlotTest then 1200000 else 2500000) → exec (.computeResetComplete p fs) s = .next s)
            ∧ (r.t0 + 1200000 ≤ s.now → r.noSlotTest = true →
                ∃ t, exec (.computeResetComplete p fs) s = .next t ∧ s.sameClock t ∧ (t.dev.part n).reset = none
                  ∧ t.dev.mem = d.mem ∧ (q.defined = true → t.dev.part n = { q with reset := none })
                  ∧ (∀ c ∈ q.cores, t.dev.core c = { Core.init with
                      pool := (d.core c).pool, thresh := (d.core c).thresh, gen := ((d.core c).gen + 1) % 256 })
                  ∧ (∀ c, c ∉ q.cores → SMap.wf Core.init d.fab.cores = true → (∀ nm target pred, (d.core c).run ≠ .waitKnot nm target pred) →
                      t.dev.core c = d.core c)
                  ∧ (∀ c ∈ q.cores, ∀ i < 64, t.dev.lknot c i = ⟨0, ((d.lknot c i).gen + 1) % 2 ^ 16⟩)
                  ∧ (∀ j x w, d.stream? j = some x → d.weave? x.weave = some w → w.bound = some n → t.dev.stream? j = some { x with reset := true })
                  ∧ (∀ id, r.waits = [id] → r.exposed ≤ 255 → s.owes id → s.replied t id 0 [BitVec.ofNat 64 r.exposed])
                  ∧ (r.waits = [] → t.dev.port = d.port))
            ∧ ∀ f, fs = [f] → r.t0 + 2500000 ≤ s.now → r.noSlotTest = false → f.bundle.toNat ∈ bundlesOf q.bundles → f.slot.val < 4 →
                f.poolBad = false → d.hub.rowMarked = [] → d.hub.rowSpares = [] → d.fab.spareUsed.get false f.bundle.toNat = false →
                (∀ b ∈ bundlesOf q.bundles, ∀ c < 4, d.fab.slotOf b c = c) →
                ∃ t, exec (.computeResetComplete p fs) s = .next t ∧ (t.dev.part n).reset = none
                  ∧ (∀ c < 4, t.dev.fab.slotOf f.bundle.toNat c = if c = f.slot.val then 4 else c)
                  ∧ t.dev.fab.spareUsed.get false f.bundle.toNat = true
                  ∧ (∀ b, t.dev.fab.degraded.get false b = d.fab.degraded.get false b)
                  ∧ (⟨s.now, 1, 0x0001, mkWord [(n, 0), (fcSlotFailed, 16)],
                      mkWord [(4 * f.bundle.toNat + f.slot.val, 0), (0, 32)]⟩ : Ev) ∈ t.dev.ev.waiting
                  ∧ (t.dev.core (4 * f.bundle.toNat + f.slot.val)).pool = (d.core (4 * f.bundle.toNat + f.slot.val)).pool)

/-- HEARTBEAT of a powered steward that is not lost records the time; STEWARD_LOST for want of a heartbeat acts
250 µs after the last or later, is logged, takes the steward out with its restart begun, and resets every
defined partition whose lowest bundle lies in its half without a slot test; a steward that passes its restart
test runs again; one that fails stays out, and with neither running the device is out of service. LEASE_RENEW of
the holder before 250 µs have passed restarts the lease, LEASE_EXPIRE ends it then, and LEASE_ACQUIRE of an
expired lease moves it: the epoch advances, every fabric unit holds it, LEAD is raised, and a new lead takes the
packet in interpretation with a fresh t_admit. A STEWARD_CONTROL_WRITE under an older epoch than the unit's is
rejected and demotes its steward; another changes nothing of itself. -/
def Obligations.StewardResult : Prop :=
  ∀ (s : State) (half : Half),
    let d := s.dev
    let h := b2n half
    let x := d.steward h
    let on : Prop := d.stewardOn h = true ∧ x.lost = false
    (on → exec (.heartbeat half) s = .next { s with dev := d.modSteward h fun x => { x with beat := s.now } })
      ∧ (¬ on → exec (.heartbeat half) s = .next s ∧ (∀ c, exec (.stewardLost half c) s = .next s) ∧ exec (.leaseRenew half) s = .next s
          ∧ exec (.leaseAcquire half) s = .next s ∧ ∀ u e, exec (.stewardControlWrite half u e) s = .next s)
      ∧ (s.now < d.beatFrom h + 250000 → exec (.stewardLost half 0) s = .next s)
      ∧ (∀ c : BitVec 2, on → c ≠ 3 → (c = 0 → d.beatFrom h + 250000 ≤ s.now) →
          ((d.steward (1 - h)).lost = false →
              ∃ t, exec (.stewardLost half c) s = .next t ∧ s.sameClock t
                ∧ t.dev.steward h = { x with lost := true, restartAt := some s.now } ∧ t.dev.steward (1 - h) = d.steward (1 - h)
                ∧ (⟨s.now, 1, 0x0002, mkWord [(fcStewardLost, 16)], BitVec.ofNat 64 (d.devResetCount s.now)⟩ : Ev) ∈ t.dev.ev.waiting
                ∧ (∀ m < 16, (d.part m).lowestIn h = true → (d.part m).reset = none →
                    ∃ k, (t.dev.part m).reset = some ⟨s.now, true, k, []⟩)
                ∧ (∀ m < 16, (d.part m).lowestIn h = false → (t.dev.part m).reset = (d.part m).reset)
                ∧ t.dev.mem = d.mem)
            ∧ ((d.steward (1 - h)).lost = true → c ≠ 2 → d.hubRuns = true →
                ∃ t, exec (.stewardLost half c) s = .next t ∧ s.sameClock t ∧ t.dev.aon.boot = .trained ∧ t.dev.hub.resetting = some false
                  ∧ t.dev.aon.devResets = d.aon.devResets ++ [s.now] ∧ t.dev.hub.dumpNumber = d.hub.dumpNumber + 1)
            ∧ ((d.steward (1 - h)).lost = true → c = 2 → ∃ t, exec (.stewardLost half c) s = .next t ∧ s.sameClock t
                ∧ t.dev.hub.oos = true))
      ∧ ((x.lost = false ∨ x.restartAt = none → ∀ ok, exec (.stewardRestartTest half ok) s = .next s)
          ∧ (x.lost = true → x.restartAt.isSome = true →
              exec (.stewardRestartTest half true) s = .next { s with dev := d.modSteward h fun x => { x with
                  lost := false, restartAt := none, beat := s.now, epoch := d.hub.leaseEpoch
                  demoted := decide (d.hub.leaseEpoch ≠ 0) && decide (d.hub.leaseHalf ≠ half) } }
                ∧ ((d.steward (1 - h)).lost = false → exec (.stewardRestartTest half false) s
                    = .next { s with dev := d.modSteward h fun x => { x with restartAt := none } })
                ∧ ((d.steward (1 - h)).lost = true → ∃ t, exec (.stewardRestartTest half false) s = .next t ∧ s.sameClock t
                    ∧ t.dev.hub.oos = true)))
      ∧ (on → d.hub.leaseHeld = true → d.hub.leaseHalf = half → s.now < d.hub.leaseAt + 250000 →
          exec (.leaseRenew half) s = .next { s with dev := { d with hub := { d.hub with leaseAt := s.now } } })
      ∧ (d.hub.leaseHeld = false ∨ d.hub.leaseHalf ≠ half ∨ d.hub.leaseAt + 250000 ≤ s.now → exec (.leaseRenew half) s = .next s)
      ∧ (d.hub.leaseHeld = true → d.hub.leaseAt + 250000 ≤ s.now →
          exec .leaseExpire s = .next { s with dev := { d with hub := { d.hub with leaseHeld := false } } })
      ∧ (d.hub.leaseHeld = false ∨ s.now < d.hub.leaseAt + 250000 → exec .leaseExpire s = .next s)
      ∧ (d.hub.leaseHeld = true → exec (.leaseAcquire half) s = .next s)
      ∧ (on → d.hub.leaseHeld = false → (half = true → d.hub.leaseEpoch = 0 → d.hub.hubResetAt + 10000000 ≤ s.now) →
          let e := d.hub.leaseEpoch + 1
          ∃ t, exec (.leaseAcquire half) s = .next t
            ∧ t = { s with dev := { d with hub := t.dev.hub, port := t.dev.port, ev := t.dev.ev } }
            ∧ t.dev.hub.leaseHalf = half ∧ t.dev.hub.leaseHeld = true ∧ t.dev.hub.leaseEpoch = e ∧ t.dev.hub.leaseAt = s.now
            ∧ (∀ u : FabricUnit, t.dev.hub.units.get 0 (fabricUnitNum u) = e)
            ∧ t.dev.steward h = { x with epoch := e, demoted := false }
            ∧ t.dev.ev.waiting = d.ev.waiting ++ [⟨s.now, 3, 0x0020, BitVec.ofNat 64 h, BitVec.ofNat 64 e⟩]
            ∧ t.dev.port.cause.getLsbD 7 = true
            ∧ t.dev.port.interp = d.port.interp.map fun p => if d.hub.leaseHalf = half then p else { p with tAdmit := s.now })
      ∧ ∀ u (epoch : BitVec 48), on →
          (d.hub.units.get 0 (fabricUnitNum u) ≤ epoch.toNat → exec (.stewardControlWrite half u epoch) s = .next s)
            ∧ (epoch.toNat < d.hub.units.get 0 (fabricUnitNum u) → ∃ t, exec (.stewardControlWrite half u epoch) s = .next t
                ∧ t = { s with dev := { d with hub := t.dev.hub, aon := t.dev.aon } }
                ∧ t.dev.steward h = { x with demoted := true, epoch := d.hub.leaseEpoch }
                ∧ t.dev.hub.units = d.hub.units
                ∧ (t.dev.aon.log.getLast?).map (fun r => (r.code, r.a, r.b)) = some (fcLeaseStale, h, epoch.toNat))

/-- HUB_FAULT, the hub running, is an automatic warm reset: logged, counted, with a new dump, an open tenant's
key destroyed; the eighth within 10 minutes takes the device out of service. BRIDGE_PACKET_FAIL below 16
failures of a lane in 1 ms is only counted; the 16th, or a failed retry, puts a spare lane in its place, stops
the side and resets the defined partitions that use the bridge, until SPARE_LANE_TRAINED; with no spare left the
device is out of service. KNOT_SLOT_PARITY of an unowned knot replaces its slot at once, of an owned one within
a reset of its owner. SRAM_ROW_ERROR of a row that no array has changes nothing; the third corrected error
within 24 h, or an uncorrectable one, marks a row of a pool or of the accumulators for the next reset of its
partition, with SRAM_ROW in the fault log; a row of a mere drops its clean lines at once. -/
def Obligations.SparePartResult : Prop :=
  ∀ (s : State),
    let d := s.dev
    (∀ unit cause, (d.hubRuns = false → exec (.hubFault unit cause) s = .next s)
        ∧ (d.hubRuns = true → d.hub.oos = false → ∃ t, exec (.hubFault unit cause) s = .next t ∧ s.sameClock t
            ∧ t.dev.aon.boot = .trained ∧ t.dev.hub.resetting = some false
            ∧ t.dev.aon.devResets = d.aon.devResets ++ [s.now] ∧ t.dev.hub.dumpNumber = d.hub.dumpNumber + 1
            ∧ t.dev.port.fifo = [] ∧ t.dev.fab.cores = [] ∧ t.dev.mem = Mem.init ∧ t.dev.ten.key = none
            ∧ t.dev.ten.state = (if d.ten.state = .open_ then .scrubbing else d.ten.state)
            ∧ (d.devResetCount s.now + 1 < 8 → t.dev.hub.oos = false) ∧ (8 ≤ d.devResetCount s.now + 1 → t.dev.hub.oos = true)
            ∧ ∃ r ∈ t.dev.aon.log, r.code = fcHubFault ∧ r.a = unit.toNat ∧ r.b = cause.toNat ∧ r.time = s.now))
      ∧ (∀ (side : Half) (lane : BitVec 8) (again : Bool),
          let h := b2n side
          let key := laneKey h lane.toNat
          let ts := (d.hub.laneFails.get [] key).filter (fun t => decide (s.now ≤ t + 1000000)) ++ [s.now]
          exec (.spareLaneTrained side) s = .next { s with dev := { d with hub := { d.hub with laneStopped := d.hub.laneStopped.set false h false } } }
            ∧ (d.hub.laneStopped.get false h = true → exec (.bridgePacketFail side lane again) s = .next s)
            ∧ (d.hubRuns = true → d.hub.laneStopped.get false h = false →
                (again = false → ts.length < 16 → exec (.bridgePacketFail side lane again) s
                    = .next { s with dev := { d with hub := { d.hub with laneFails := d.hub.laneFails.set [] key ts } } })
                  ∧ (again = true ∨ 16 ≤ ts.length → d.hub.laneUsed.get 0 h < 2 → ∃ t, exec (.bridgePacketFail side lane again) s = .next t
                      ∧ s.sameClock t ∧ t.dev.hub.laneUsed.get 0 h = d.hub.laneUsed.get 0 h + 1 ∧ t.dev.hub.laneStopped.get false h = true
                      ∧ t.dev.hub.laneFails.get [] key = [] ∧ t.dev.hub.oos = d.hub.oos
                      ∧ (∀ m < 16, (d.part m).defined = true → 34 ∈ d.partDomains m → (t.dev.part m).reset.isSome = true)
                      ∧ (∀ m < 16, 34 ∉ d.partDomains m → (t.dev.part m).reset = (d.part m).reset))
                  ∧ (again = true ∨ 16 ≤ ts.length → 2 ≤ d.hub.laneUsed.get 0 h → ∃ t, exec (.bridgePacketFail side lane again) s = .next t
                      ∧ s.sameClock t ∧ t.dev.hub.oos = true)))
      ∧ (∀ i : BitVec 12,
          let k := d.gknot i.toNat
          (k.withdrawn = true ∨ k.failed = true → exec (.knotSlotParity i) s = .next s)
            ∧ (d.hubRuns = true → k.withdrawn = false → k.failed = false → k.owner = none → d.fab.knotSpares < 512 →
                ∃ t, exec (.knotSlotParity i) s = .next t
                  ∧ t = { s with dev := { d with fab := t.dev.fab, aon := t.dev.aon, freeCount := t.dev.freeCount } }
                  ∧ t.dev.gknot i.toNat = { k with spare := true } ∧ t.dev.fab.knotSpares = d.fab.knotSpares + 1
                  ∧ (∀ j, j ≠ i.toNat → t.dev.gknot j = d.gknot j) ∧ t.dev.fab.cores = d.fab.cores
                  ∧ (t.dev.aon.log.getLast?).map (fun r => (r.code, r.a)) = some (fcKnotSlot, i.toNat))
            ∧ ∀ p < 16, d.hubRuns = true → k.withdrawn = false → k.failed = false → k.owner = some p →
                ∃ t, exec (.knotSlotParity i) s = .next t ∧ s.sameClock t ∧ t.dev.gknot i.toNat = { k with failed := true }
                  ∧ t.dev.fab.knotSpares = d.fab.knotSpares ∧ (t.dev.part p).reset.isSome = true)
      ∧ ∀ arr unit row bad held lost,
          let key := rowKey arr unit row
          let ts := (d.hub.rowErrs.get [] key).filter (fun t => decide (s.now ≤ t + 86400000000000)) ++ [s.now]
          let run := exec (.sramRowError arr unit row bad held lost) s
          let inRange := match arr with
            | .pool => unit < 80 ∧ row < 3072
            | .accumulator => unit < 80 ∧ row < 4096
            | .mere => unit < 8 ∧ row < 6144
            | .hub => unit < 4 ∧ row < 65536
          (¬ inRange → run = .next s)
            ∧ (inRange → d.hubRuns = true → d.hub.rowMarked.get 0 key = 0 → bad = false → ts.length < 3 →
                run = .next { s with dev := { d with hub := { d.hub with rowErrs := d.hub.rowErrs.set [] key ts } } })
            ∧ (inRange → d.hubRuns = true → d.hub.rowMarked.get 0 key = 0 → (bad = true ∨ 3 ≤ ts.length) →
                (arr = .pool ∨ arr = .accumulator → ∃ t, run = .next t
                    ∧ t = { s with dev := { d with hub := t.dev.hub, aon := t.dev.aon } }
                    ∧ t.dev.hub = { d.hub with rowErrs := d.hub.rowErrs.set [] key []
                                               rowMarked := d.hub.rowMarked.set 0 key (if bad then 2 else 1) }
                    ∧ (t.dev.aon.log.getLast?).map (fun r => (r.code, r.a, r.b)) = some (fcSramRow, sramNum arr, row))
                  ∧ (arr = .mere → lost = [] → (∀ l ∈ held, d.mem.dirty.get false l = false ∧ d.mem.full.get false (l / 512) = false) → ∃ t, run = .next t
                    ∧ t = { s with dev := { d with hub := t.dev.hub, aon := t.dev.aon, mem := t.dev.mem, arb := t.dev.arb } }
                    ∧ t.dev.mem.bytes = d.mem.bytes
                    ∧ t.dev.mem.cached = d.mem.cached.filter fun e => !(e.1 == decide (4 ≤ unit) && held.contains e.2))
                  ∧ (arr = .hub → bad = true → unit < 3 → ∃ t, run = .next t ∧ s.sameClock t ∧ t.dev.aon.boot = .trained
                    ∧ t.dev.hub.resetting = some false)
                  ∧ (arr = .hub → (bad = false ∨ unit = 3) → ∃ t, run = .next t
                    ∧ t = { s with dev := { d with hub := t.dev.hub, aon := t.dev.aon } }))
            ∧ (inRange → d.hubRuns = true → d.hub.rowMarked.get 0 key ≠ 0 → bad = true →
                run = .next { s with dev := { d with hub := { d.hub with rowMarked := d.hub.rowMarked.set 0 key 2 } } })

/-- REPLICA_SAMPLE of a monitor of a powered domain, 1 µs or more after its last: a good reading clears that
monitor's count; its third low one in a row raises PACE_SHORTFALL, and below the rail's maximum of 900 mV adds
10 mV and moves the rail, or is held while the rail moves; at the maximum the shortfall is timed, until every
monitor of the domain reads well again, which clears the alarm. SHORTFALL_AT_MAX after 50 µs is a supply alarm.
DOMAIN_PACE_ACK within 2 µs puts the domain's lower pace in force, no lower than the floor as it then stands,
and after the last one the voltage write follows where the voltage changes; PACE_ACK_TIMEOUT ends the lowering
with no write and logs the domain. AVS_SETTLED puts the voltage in force; PACE_APPLY 20 µs later puts the raised
paces in force, pace 7 starting a boost; AVS_SETTLE_TIMEOUT 1 ms after the write, which puts a lowered domain
back to its old pace, and the third AVSBus response in a row with a bad CRC are supply alarms. Nothing happens
before those times. -/
def Obligations.PaceSequencerResult : Prop :=
  ∀ (s : State),
    let d := s.dev
    let alarmed (t : State) (r cause : Nat) : Prop := (t.dev.rail r).alarm = true
      ∧ (⟨s.now, 2, 0x0011, mkWord [(r, 0), (cause, 8)], 0⟩ : Ev) ∈ t.dev.ev.waiting
    (∀ m : MonitorId,
        let i := m.dom.val
        let r := railOf i
        let x := d.dom i
        let y := x.monitors.get {} m.mon
        let due : Prop := ∀ t, y.at_ = some t → t + 1000 ≤ s.now
        (x.on = false ∨ ¬ due → ∀ b, exec (.replicaSample m b) s = .next s)
          ∧ (x.on = true → due → x.atMaxSince = none → exec (.replicaSample m false) s
              = .next { s with dev := d.modDom i fun x => x.sample m.mon ⟨0, some s.now, false⟩ })
          ∧ (x.on = true → due → x.atMaxSince.isSome = true → (x.sample m.mon ⟨0, some s.now, false⟩).steady = true →
              (∀ j ∈ domainsOn r, j ≠ i → (d.dom j).atMaxSince = none) → ∃ t, exec (.replicaSample m false) s = .next t
                ∧ t = { s with dev := { d with pace := t.dev.pace } } ∧ (t.dev.dom i).atMaxSince = none ∧ (t.dev.rail r).alarm = false)
          ∧ (x.on = true → due → y.lows < 2 → exec (.replicaSample m true) s
              = .next { s with dev := d.modDom i fun x => x.sample m.mon { y with lows := y.lows + 1, at_ := some s.now } })
          ∧ (x.on = true → due → y.lows = 2 → ∃ t, exec (.replicaSample m true) s = .next t
              ∧ t = { s with dev := { d with pace := t.dev.pace, ev := t.dev.ev } }
              ∧ t.dev.ev.waiting = d.ev.waiting ++ [⟨s.now, 2, 0x0012, mkWord [(i, 0), (x.pace, 8)], 0⟩]
              ∧ (t.dev.dom i).monitors.get {} m.mon = ⟨0, some s.now, true⟩ ∧ (t.dev.dom i).pace = x.pace
              ∧ (∀ k, k ≠ m.mon → (t.dev.dom i).monitors.get {} k = x.monitors.get {} k)
              ∧ ((d.rail r).mv < 900 → (d.rail r).trans = none →
                  (t.dev.rail r).offset = (d.rail r).offset + 10 ∧ (t.dev.rail r).trans.isSome = true)
              ∧ ((d.rail r).mv < 900 → (d.rail r).trans.isSome = true → (t.dev.rail r).offset = (d.rail r).offset
                  ∧ (t.dev.rail r).trans = (d.rail r).trans ∧ ∃ a, (t.dev.rail r).held = some a ∧ a.bump = true)
              ∧ (900 ≤ (d.rail r).mv → t.dev.rail r = d.rail r ∧ (t.dev.dom i).atMaxSince = some (x.atMaxSince.getD s.now))))
      ∧ (∀ dom : Dom,
        let i := dom.val
        let r := railOf i
        let x := d.dom i
        (x.atMaxSince = none → exec (.shortfallAtMax dom) s = .next s)
          ∧ (∀ t0, x.atMaxSince = some t0 →
              (s.now < t0 + 50000 ∨ (d.rail r).alarm = true → exec (.shortfallAtMax dom) s = .next s)
                ∧ (t0 + 50000 ≤ s.now → (d.rail r).alarm = false → ∃ t, exec (.shortfallAtMax dom) s = .next t ∧ alarmed t r 0
                    ∧ t = { s with dev := { d with pace := t.dev.pace, ev := t.dev.ev, parts := t.dev.parts } }))
          ∧ ((d.rail r).trans = none → exec (.domainPaceAck dom) s = .next s)
          ∧ ∀ tr left, (d.rail r).trans = some tr → tr.phase = .acks left →
              (i ∉ left ∨ tr.since + 2000 < s.now → exec (.domainPaceAck dom) s = .next s)
                ∧ ∀ v, i ∈ left → s.now ≤ tr.since + 2000 → (tr.targets.find? fun y => y.1 == i) = some (i, v) →
                    ∃ t, exec (.domainPaceAck dom) s = .next t ∧ s.sameClock t
                      ∧ ((left.erase i ≠ [] ∨ (d.rail r).held = none) → (t.dev.dom i).pace = d.clamped i v)
                      ∧ (left.erase i ≠ [] → (t.dev.rail r).trans = some { tr with phase := .acks (left.erase i) })
                      ∧ (left = [i] → ∀ mv, mv = (d.putPace i (d.clamped i v)).needMv r [] (d.rail r).offset →
                          (mv ≠ (d.rail r).mv ∨ mv ≠ (d.rail r).cmd → (t.dev.rail r).trans = some { tr with phase := .settling, mv := mv, since := s.now }
                              ∧ (t.dev.rail r).cmd = mv)
                            ∧ (mv = (d.rail r).mv → mv = (d.rail r).cmd → (d.rail r).held = none → (t.dev.rail r).trans = none)))
      ∧ ∀ rail : Rail,
          let r := rail.val
          let x := d.rail r
          (x.trans = none → exec (.paceAckTimeout rail) s = .next s ∧ exec (.avsSettled rail) s = .next s
              ∧ exec (.paceApply rail) s = .next s ∧ exec (.avsSettleTimeout rail) s = .next s)
            ∧ (∀ tr left, x.trans = some tr → tr.phase = .acks left →
                (s.now < tr.since + 2000 → exec (.paceAckTimeout rail) s = .next s)
                  ∧ ∀ i, tr.since + 2000 ≤ s.now → left = [i] → x.held = none → ∃ t, exec (.paceAckTimeout rail) s = .next t
                      ∧ s.sameClock t ∧ (t.dev.rail r).trans = none ∧ (t.dev.rail r).mv = x.mv ∧ t.dev.pace.doms = d.pace.doms
                      ∧ (t.dev.aon.log.getLast?).map (fun r => (r.code, r.a)) = some (fcPaceAck, i))
            ∧ (∀ tr, x.trans = some tr → tr.phase = .settling →
                (tr.raising = true → ∃ t, exec (.avsSettled rail) s = .next t
                    ∧ t = { s with dev := { d with pace := t.dev.pace, sec := t.dev.sec } } ∧ t.dev.pace.doms = d.pace.doms
                    ∧ t.dev.rail r = { x with mv := tr.mv, alarm := false, badFrames := 0, trans := some { tr with phase := .settled, since := s.now } })
                  ∧ (tr.raising = false → x.held = none → ∃ t, exec (.avsSettled rail) s = .next t ∧ s.sameClock t
                    ∧ t.dev.rail r = { x with mv := tr.mv, alarm := false, badFrames := 0, trans := none, held := none }
                    ∧ t.dev.pace.doms = d.pace.doms)
                  ∧ (s.now < tr.since + 1000000 → exec (.avsSettleTimeout rail) s = .next s)
                  ∧ (tr.since + 1000000 ≤ s.now → tr.raising = true → x.held = none → ∃ t, exec (.avsSettleTimeout rail) s = .next t ∧ s.sameClock t
                    ∧ alarmed t r 1 ∧ (t.dev.rail r).trans = none ∧ (t.dev.rail r).mv = x.mv ∧ t.dev.pace.doms = d.pace.doms)
                  ∧ ∀ i v, tr.since + 1000000 ≤ s.now → tr.raising = false → x.held = none → tr.old = [(i, v)] → (d.dom i).on = true →
                    ∃ t u, exec (.avsSettleTimeout rail) s = .next t ∧ s.sameClock t ∧ alarmed t r 1 ∧ (t.dev.dom i).pace = v
                      ∧ (∀ j, j ≠ i → t.dev.dom j = d.dom j) ∧ (t.dev.rail r).mv = min x.mv tr.mv ∧ (t.dev.rail r).trans = some u
                      ∧ u.raising = true)
            ∧ (∀ tr, x.trans = some tr → tr.phase = .settled →
                (s.now < tr.since + 20000 → exec (.paceApply rail) s = .next s)
                  ∧ ∀ i v, tr.since + 20000 ≤ s.now → tr.targets = [(i, v)] → x.held = none → ∃ t, exec (.paceApply rail) s = .next t
                      ∧ s.sameClock t ∧ t.dev.dom i = { d.dom i with on := true, pace := v } ∧ (∀ j, j ≠ i → t.dev.dom j = d.dom j)
                      ∧ (t.dev.rail r).trans = none ∧ (t.dev.rail r).mv = x.mv
                      ∧ t.dev.pace.boostStart = (if v = 7 ∧ d.pace.boostStart = none then some s.now else d.pace.boostStart))
            ∧ exec (.avsFrameResponse rail true) s = .next { s with dev := d.modRail r fun x => { x with badFrames := 0 } }
            ∧ (x.badFrames < 2 → exec (.avsFrameResponse rail false) s
                = .next { s with dev := d.modRail r fun x => { x with badFrames := x.badFrames + 1 } })
            ∧ (2 ≤ x.badFrames → ∃ t, exec (.avsFrameResponse rail false) s = .next t ∧ alarmed t r 1 ∧ (t.dev.rail r).badFrames = 0
                ∧ t = { s with dev := { d with pace := t.dev.pace, ev := t.dev.ev, parts := t.dev.parts } })

/-- PACE_SET of one domain in RUN to a pace at or above its floor, up to its cap and below 7, none raised under
THERMAL_DEGRADE or a supply alarm: the pace is recorded; where it is in force and nothing moves, the reply gives
it at once, and where it is not, with the rail idle, the rail moves and the command waits; a pace below the
floor is REFUSED_STATE, a domain above 34 but 255 BAD_PARAM. BOOST_END 2 s after the boost began, or with Tj at
100 °C or more, ends it, and before that nothing. PARTITION_SET in RUN with bundles that no other partition
holds and none degraded defines the partition; a mask of 0 removes it; bundles another partition holds are
refused. -/
def Obligations.PaceCommandResult : Prop :=
  ∀ (s : State) (p : Packet), p.w 1 = 0 → (p.w 0).toNat % 2 ^ 12 = 0 →
    let d := s.dev
    (∀ i v, s.serves 0x61 p → p.words.length = 4 → (p.w 2).toNat = i + v * 2 ^ 8 → i < 256 → v < 8 →
        (34 < i → i ≠ 255 → ∃ t, exec .paceSet s = .next t ∧ s.onlyAnswered t p 0x0600 [])
          ∧ (i < 35 → v < d.floorOf i → ∃ t, exec .paceSet s = .next t ∧ s.onlyAnswered t p 0x0101 [])
          ∧ (i < 35 → d.pwr.state = .run → d.floorOf i ≤ v → v < 7 → v ≤ d.capOf i → ((d.dom i).pace < v → d.therm.degrade = false ∧ d.supplyAlarm = false) →
              (d.dom i).on = true → d.pace.waits = [] →
              ((d.dom i).pace = v → d.paceMoving i = false → ∃ t, exec .paceSet s = .next t ∧ s.answered t p 0 [BitVec.ofNat 64 v]
                  ∧ t.dev.dom i = { d.dom i with setPace := v } ∧ (∀ j, j ≠ i → t.dev.dom j = d.dom j) ∧ t.dev.pace.rails = d.pace.rails)
                ∧ ((d.dom i).pace ≠ v → (d.rail (railOf i)).trans = none → ∃ t tr, exec .paceSet s = .next t ∧ s.sameClock t
                    ∧ t.dev.port = { d.port with interp := none } ∧ t.dev.pace.waits = [⟨p.id, [i], none⟩]
                    ∧ t.dev.dom i = { d.dom i with setPace := v } ∧ (t.dev.rail (railOf i)).trans = some tr
                    ∧ tr.targets = [(i, v)] ∧ tr.raising = decide ((d.dom i).pace < v)
                    ∧ ∀ r, r ≠ railOf i → t.dev.rail r = d.rail r)))
      ∧ (d.pace.boostStart = none → exec .boostEnd s = .next s)
      ∧ (∀ t0, d.pace.boostStart = some t0 →
          (s.now < t0 + 2000000000 → d.therm.device < 1600 → exec .boostEnd s = .next s)
            ∧ (t0 + 2000000000 ≤ s.now ∨ 1600 ≤ d.therm.device → ∃ t, exec .boostEnd s = .next t ∧ s.sameClock t
                ∧ t.dev.pace.boostStart = none ∧ t.dev.pace.boostEnd = some s.now ∧ t.dev.port = d.port
                ∧ ∀ i < 35, (d.dom i).pace = 7 → (d.dom i).on = true → t.dev.paceMoving i = true))
      ∧ ∀ n mask pg (compat : Bool), s.serves 0x23 p → p.words.length = 4 → n < 16 → mask < 2 ^ 16 → pg < 7 →
          (p.w 2).toNat = n + mask * 2 ^ 8 + pg * 2 ^ 24 + b2n compat * 2 ^ 27 →
          (d.bundlesTaken n mask = true → ∃ t, exec .partitionSet s = .next t ∧ s.onlyAnswered t p 0x0101 [])
            ∧ (d.pwr.state = .run → d.pwr.handOver = false → d.bundlesTaken n mask = false → (d.part n).weave = none →
                (mask = 0 → ∃ t, exec .partitionSet s = .next t ∧ s.answered t p 0 [mkWord [(n, 0)], 0] ∧ (t.dev.part n).defined = false
                    ∧ (t.dev.part n).items = [] ∧ ∀ m, m ≠ n → t.dev.part m = d.part m)
                  ∧ (mask ≠ 0 → d.pace.waits = [] → (∀ i < 35, pg ≤ (d.dom i).pace ∧ d.paceMoving i = false) →
                      let back := (d.part n).defined && (d.part n).oos && mask == (d.part n).bundles
                      let q := { d.part n with defined := true, bundles := mask, pg := pg, compat := compat, oos := (d.part n).oos && !back, resetTimes := if back then [] else (d.part n).resetTimes }
                      ∃ t, exec .partitionSet s = .next t ∧ t.dev.part n = q ∧ (∀ m, m ≠ n → t.dev.part m = d.part m)
                        ∧ s.answered t p 0 [q.word n, BitVec.ofNat 64 (t.dev.lowest (t.dev.partDomains n))]
                        ∧ t.dev.pace = d.pace ∧ t.dev.ten = d.ten ∧ t.dev.mem = d.mem))

/-- POWER_STATE of the state in force is answered at once with that state and 0; one that lowers the state is
recorded and waits; one that raises it starts at once; with a transition under way it is REFUSED_STATE, and a
code above 4 is BAD_PARAM. TRANSITION_ITEM_START starts a waiting transition whose item fits.
POWER_TRANSITION_COMPLETE while none runs, or while rails still move, changes nothing; where rails and domains
stand as the next state needs them, and that state is the one asked for, it is in force from now on, the
transition is over, and the command is answered with the state and the time taken; memory is refreshed by the
controller in RUN and HUSH only, at half rate in HUSH. BATTERY_BUDGET records the budget and answers it, or what
is left on battery. -/
def Obligations.PowerStateResult : Prop :=
  ∀ (s : State),
    let d := s.dev
    (∀ p : Packet, p.w 1 = 0 → (p.w 0).toNat % 2 ^ 12 = 0 → p.words.length = 4 →
        (s.serves 0x60 p →
          (4 < (p.w 2).toNat → ∃ t, exec .powerState s = .next t ∧ s.onlyAnswered t p 0x0600 [])
            ∧ ∀ b : Power, (p.w 2).toNat = b.num →
              (d.pwr.trans.isSome = true → ∃ t, exec .powerState s = .next t ∧ s.onlyAnswered t p 0x0101 [])
                ∧ (d.powerRefused s.now b = false →
                    let cas := { d.cas with raised := false, linger := none }
                    (b = d.pwr.state → ∃ t, exec .powerState s = .next t ∧ s.answered t p 0 [BitVec.ofNat 64 b.num, 0]
                        ∧ t = { s with dev := { d with port := t.dev.port, cas := cas, hub := { d.hub with resetAsk := t.dev.hub.resetAsk } } })
                      ∧ (d.pwr.state.num < b.num → exec .powerState s = .next { s with dev := { d with
                          port := { d.port with interp := none }, cas := cas, pwr := { d.pwr with trans := some ⟨b, some p.id, s.now, none, false⟩ } } })
                      ∧ (b = .run → d.pwr.state = .hush → ∃ t, exec .powerState s = .next t ∧ s.sameClock t
                          ∧ t.dev.port = { d.port with interp := none } ∧ t.dev.pwr.state = .hush
                          ∧ t.dev.pwr.trans = some ⟨.run, some p.id, s.now, some s.now, false⟩ ∧ t.dev.dram.freq = some (s.now, false)
                          ∧ t.dev.mem = d.mem ∧ t.dev.ten = d.ten)))
          ∧ (s.serves 0x62 p → (p.w 2).toNat < 2 ^ 32 →
              let pwr := { d.pwr with budget := (p.w 2).toNat }
              ∃ t, exec .batteryBudget s = .next t
                ∧ s.answered t p 0 [BitVec.ofNat 64 (if d.pwr.onBattery then pwr.remainder else (p.w 2).toNat)]
                ∧ t = { s with dev := { d with port := t.dev.port, pwr := pwr, hub := { d.hub with resetAsk := t.dev.hub.resetAsk } } }))
      ∧ (d.pwr.trans = none → exec .powerTransitionComplete s = .next s ∧ exec .transitionItemStart s = .next s)
      ∧ ∀ tr, d.pwr.trans = some tr →
          (tr.started = none ∨ d.railsIdle = false ∨ d.pwr.pfail.isSome = true ∨ d.dram.freq.isSome = true →
              exec .powerTransitionComplete s = .next s)
            ∧ (tr.started.isSome = true ∨ d.transFits s.now tr.to_ = false → exec .transitionItemStart s = .next s)
            ∧ (tr.started = none → d.pwr.pfail = none → d.therm.tripped = false → d.railsIdle = true → d.dram.freq = none →
                d.cas.tier1 = none → d.cas.waiting = none → d.transFits s.now tr.to_ = true →
                ∃ t, exec .transitionItemStart s = .next t ∧ s.sameClock t ∧ t.dev.pwr.state = d.pwr.state
                  ∧ t.dev.pwr.trans.map (fun x => (x.to_, x.started)) = some (tr.to_, some s.now))
            ∧ (tr.started.isSome = true → d.pwr.pfail = none → d.therm.tripped = false → d.railsIdle = true → d.dram.freq = none →
                let b := tr.to_
                d.pwr.state.hop b = b → (b = .listen → d.flashBusy = false) → d.railsReady b (!d.pwr.state.lowers b) = true → tr.handOver = false →
                ∃ t, exec .powerTransitionComplete s = .next t ∧ s.sameClock t ∧ t.dev.pwr.state = b ∧ t.dev.pwr.since = s.now
                  ∧ (b ≠ .off → t.dev.pwr.trans = none)
                  ∧ (b = .run → t.dev.dram.selfRefresh = false ∧ t.dev.dram.low = false)
                  ∧ (b = .hush → t.dev.dram.selfRefresh = false ∧ t.dev.dram.low = true)
                  ∧ (b = .listen ∨ b = .ember → t.dev.dram.selfRefresh = true)
                  ∧ (b = .ember → t.dev.port.fifo = [] ∧ t.dev.mem.cached = [] ∧ t.dev.mem.dirty = [])
                  ∧ (b = .off → t.dev.aon.boot = .down ∧ t.dev.fab.cores = [] ∧ t.dev.aon.devResets = d.aon.devResets
                      ∧ ∀ m, (t.dev.part m).items = [] ∧ (t.dev.part m).defined = false)
                  ∧ ∀ id, b = .run ∨ b = .hush ∨ b = .listen → tr.id = some id → s.owes id →
                      s.replied t id 0 [BitVec.ofNat 64 b.num, BitVec.ofNat 64 (s.now - tr.asked)])

/-- PWR_MAINS_CHANGE takes the pin's level with its time; a low stops the count. PWR_MAINS_ACCEPT of a level
that has held 50 ms accepts it; a rise on battery starts the count; a fall with PWR_BATT high in RUN, HUSH or
LISTEN starts the hand-over, which in LISTEN and EMBER completes at once: ON_BATTERY with nothing spent.
MAINS_COUNT_RESTART starts a stopped count again 50 ms after the pin is high; MAINS_COUNT_COMPLETE 2 s after its
start ends the episode. MAINS_STABLE_WAKE 2 s after mains was accepted in a state entered by loss,
PERST_DEASSERT after 100 µs low on PCIe and XSPI_CS_WAKE of 1 µs low on xSPI wake the device: EMBER passes to
LISTEN, OFF starts. Before those times nothing happens. -/
def Obligations.MainsResult : Prop :=
  ∀ (s : State),
    let d := s.dev
    let put (x : PowerSt) : State := { s with dev := { d with pwr := x } }
    let woken (t : State) : Prop := s.sameClock t
      ∧ (d.pwr.state = .ember → t.dev.pwr.trans.map (fun x => (x.to_, x.id, x.started)) = some (.listen, none, some s.now))
      ∧ (d.pwr.state = .off → t.dev.aon.boot = .released ∧ t.dev.aon.bootAt = s.now ∧ t.dev.aon.gpio0 = true)
    exec (.pwrMainsChange d.pwr.mains) s = .next s
      ∧ (d.pwr.mains = false → exec (.pwrMainsChange true) s = .next (put { d.pwr with mains := true, mainsAt := s.now }))
      ∧ (d.pwr.mains = true → exec (.pwrMainsChange false) s = .next (put { d.pwr with
          mains := false, mainsAt := s.now, count := none, countStopped := d.pwr.countStopped || d.pwr.count.isSome }))
      ∧ (∀ level, exec (.pwrBattAccept level) s = .next (put { d.pwr with battAcc := level }))
      ∧ (d.pwr.mains = d.pwr.mainsAcc ∨ s.now < d.pwr.mainsAt + 50000000 → exec .pwrMainsAccept s = .next s)
      ∧ (d.aon.up = true → d.pwr.mainsAt + 50000000 ≤ s.now →
          let acc := { d.pwr with mainsAcc := d.pwr.mains, mainsAccAt := s.now, countStopped := false, count := none }
          (d.pwr.mains = true → d.pwr.mainsAcc = false → exec .pwrMainsAccept s
              = .next (put { acc with count := if d.pwr.onBattery && !d.pwr.handOver then some s.now else none }))
            ∧ (d.pwr.mains = false → d.pwr.mainsAcc = true →
                ((d.pwr.battAcc = false ∨ d.ready = false) → exec .pwrMainsAccept s = .next (put acc))
                  ∧ (d.pwr.battAcc = true → d.ready = true → d.therm.tripped = false → d.pwr.pfail = none → d.pwr.handOver = false →
                      d.pwr.onBattery = false → d.pwr.trans = none →
                      (d.pwr.state = .run ∨ d.pwr.state = .hush → ∃ t, exec .pwrMainsAccept s = .next t ∧ s.sameClock t
                          ∧ t.dev.pwr.handOver = true ∧ t.dev.pwr.onBattery = false ∧ t.dev.pwr.mainsAcc = false
                          ∧ t.dev.pwr.trans = some ⟨.listen, none, s.now, none, false⟩ ∧ t.dev.pwr.state = d.pwr.state)
                        ∧ (d.pwr.state = .listen ∨ d.pwr.state = .ember → ∃ t, exec .pwrMainsAccept s = .next t
                            ∧ t = { s with dev := { d with pwr := t.dev.pwr, port := t.dev.port } }
                            ∧ t.dev.pwr = { acc with handOver := false, onBattery := true, spent := 0 }
                            ∧ t.dev.port.cause.getLsbD 7 = true))))
      ∧ (d.pwr.countStopped = true → d.pwr.mains = true → d.pwr.mainsAcc = true → d.pwr.mainsAt + 50000000 ≤ s.now →
          exec .mainsCountRestart s = .next (put { d.pwr with count := some s.now, countStopped := false }))
      ∧ (d.pwr.countStopped = false ∨ d.pwr.mains = false ∨ s.now < d.pwr.mainsAt + 50000000 → exec .mainsCountRestart s = .next s)
      ∧ (d.pwr.count = none ∨ d.pwr.onBattery = false → exec .mainsCountComplete s = .next s)
      ∧ (∀ t0, d.pwr.count = some t0 →
          (s.now < t0 + 2000000000 → exec .mainsCountComplete s = .next s)
            ∧ (d.pwr.onBattery = true → t0 + 2000000000 ≤ s.now → ∃ t, exec .mainsCountComplete s = .next t
                ∧ t = { put { d.pwr with onBattery := false, count := none, countStopped := false } with
                    dev := { (put { d.pwr with onBattery := false, count := none, countStopped := false }).dev with port := t.dev.port } }
                ∧ t.dev.port.cause.getLsbD 7 = true))
      ∧ (d.pwr.enteredByLoss = false ∨ d.pwr.mainsAcc = false ∨ s.now < max d.pwr.mainsAccAt d.pwr.since + 2000000000 ∨ d.wakes = false →
          exec .mainsStableWake s = .next s)
      ∧ (d.pwr.enteredByLoss = true → d.pwr.mainsAcc = true → max d.pwr.mainsAccAt d.pwr.since + 2000000000 ≤ s.now → d.wakes = true →
          ∃ t, exec .mainsStableWake s = .next t ∧ woken t)
      ∧ (d.aon.perstLow = none → exec .perstDeassert s = .next s)
      ∧ (∀ t0, d.aon.perstLow = some t0 →
          ((d.aon.bootSel = true ∨ s.now < t0 + 100000 ∨ d.wakes = false) →
              exec .perstDeassert s = .next { s with dev := { d with aon := { d.aon with perstLow := none } } })
            ∧ (d.aon.bootSel = false → t0 + 100000 ≤ s.now → d.wakes = true →
                ∃ t, exec .perstDeassert s = .next t ∧ woken t ∧ t.dev.aon.perstLow = none))
      ∧ ∀ low, (d.aon.bootSel = false ∨ low < 1000 ∨ d.wakes = false → exec (.xspiCsWake low) s = .next s)
          ∧ (d.aon.bootSel = true → 1000 ≤ low → d.wakes = true → ∃ t, exec (.xspiCsWake low) s = .next t ∧ woken t)

/-- POWER_ON_TIMER of a powered-down device starts device time at 0. PORST_RELEASE latches BOOT_SEL and raises
GPIO0; one bad fuse bank is a device fault, two put the device out of service. VDD_HUB_RAISE 5 ms later writes
0.80 V; HUB_RELEASE once the rail has been settled for 20 µs starts the hub, the entropy source and the I3C
buses; TRAINING_COMPLETE brings memory up at the highest rate under the board's cap that every rank set not
excluded passes, one that fails at 4,800 MT/s or at the low point being excluded with its event, and a bad
population puts the device out of service; PEAT_MOUNT maps each page by its newest DONE or RELEASE in the
journal, FIRST_BOOT_MOUNT on a device without a journal retires the factory bad blocks and maps the production
pages, and both end in RUN, READY, out of service where no boot copy is good. Out of its turn each changes
nothing. What a rank set without a result passes is the model's choice (log entry 65). -/
def Obligations.BootResult : Prop :=
  ∀ (s : State),
    let d := s.dev
    (d.aon.up = true → exec .powerOnTimer s = .next s)
      ∧ (d.aon.up = false → exec .powerOnTimer s = .next { s with now := 0, dev := { d with aon := { d.aon with up := true } } })
      ∧ (∀ sel b0 b1,
          (d.aon.porstLow = false → exec (.porstRelease sel b0 b1) s = .next s)
            ∧ (d.aon.up = true → d.aon.porstLow = true →
                let aon := { d.aon with porstLow := false, bootSel := sel, fuseBank := !b0 && b1, fusesLost := !b0 && !b1, devResets := []
                                        gpio0 := true, boot := .released, bootAt := s.now }
                (b0 = true → b1 = true → exec (.porstRelease sel b0 b1) s
                    = .next { s with dev := { d with aon := aon, hub := { d.hub with oos := false } } })
                  ∧ (b0 ≠ b1 → ∃ t, exec (.porstRelease sel b0 b1) s = .next t
                      ∧ t = { s with dev := { d with aon := t.dev.aon, hub := { d.hub with oos := false }, ev := t.dev.ev } }
                      ∧ t.dev.aon.fuseBank = b1 ∧ t.dev.aon.boot = .released
                      ∧ t.dev.ev.waiting = d.ev.waiting ++ [⟨s.now, 1, 0x0002, mkWord [(fcFuseBank, 16)], 0⟩])
                  ∧ (b0 = false → b1 = false → ∃ t, exec (.porstRelease sel b0 b1) s = .next t ∧ s.sameClock t ∧ t.dev.hub.oos = true
                      ∧ t.dev.aon.boot = .released)))
      ∧ (d.aon.boot ≠ .released → d.aon.boot ≠ .hubRail → exec .vddHubRaise s = .next s)
      ∧ (s.now < d.aon.bootAt + 5000000 → exec .vddHubRaise s = .next s)
      ∧ (d.aon.boot = .released → d.aon.bootAt + 5000000 ≤ s.now → (d.rail 2).trans = none → (d.rail 2).mv < 800 →
          exec .vddHubRaise s = .next { s with dev := ({ d with aon := { d.aon with boot := .hubRail } } : Device).modRail 2 fun x =>
            { x with cmd := 800, trans := some ⟨true, [], [], 800, .settling, s.now⟩ } })
      ∧ (d.aon.boot ≠ .hubRail ∨ (d.rail 2).mv < 800 → exec .hubRelease s = .next s)
      ∧ (∀ tr, (d.rail 2).trans = some tr → (tr.phase ≠ .settled ∨ s.now < tr.since + 20000) → exec .hubRelease s = .next s)
      ∧ (d.aon.boot = .hubRail → 800 ≤ (d.rail 2).mv →
          (∀ tr, (d.rail 2).trans = some tr → tr.phase = .settled ∧ tr.since + 20000 ≤ s.now) →
          ∃ t, exec .hubRelease s = .next t ∧ s.sameClock t ∧ t.dev.aon = { d.aon with boot := .hubUp, gpio1 := true }
            ∧ t.dev.sec.startAt = some s.now ∧ t.dev.sec.entropyReady = false ∧ t.dev.hub.hubResetAt = s.now
            ∧ (∀ b < 2, (t.dev.bus b).nextTry = some s.now ∧ (t.dev.bus b).table = [])
            ∧ (∀ h < 2, (t.dev.halfDram h).gen128 = Config.fuseSeed ∧ (t.dev.halfDram h).draws = 0) ∧ t.dev.port = d.port)
      ∧ (∀ pop (kit : DramKit) (last : RankSet) rs lows,
          (d.aon.boot ≠ .hubUp → exec (.trainingComplete pop kit last rs lows) s = .next s)
            ∧ (d.aon.boot = .hubUp → pop = false → ∃ t, exec (.trainingComplete pop kit last rs lows) s = .next t ∧ s.sameClock t
                ∧ t.dev.hub.oos = true ∧ t.dev.aon.boot = .trained)
            ∧ (d.aon.boot = .hubUp → pop = true → (∀ h < 2, (d.halfDram h).retired.length < 1024) →
                let set := d.boardSettings
                let done (t : State) : Prop := s.sameClock t ∧ t.dev.aon.boot = .trained ∧ t.dev.hub.oos = d.hub.oos ∧ t.dev.dram.trained = true
                  ∧ t.dev.dram.low = false ∧ t.dev.dram.settings = set ∧ t.dev.dram.kit = kit ∧ t.dev.dram.lowSet = some 3200
                  ∧ t.dev.dram.fullSet = some (rateMts t.dev.dram.rate)
                  ∧ ∀ h < 2, ∀ cs ≤ last.val, t.dev.dram.zqAt.get 0 (3 * h + cs) = s.now
                (lows = [] → (∀ x ∈ rs, .r4800 ∈ x.rates) → ∃ t, exec (.trainingComplete pop kit last rs lows) s = .next t ∧ done t
                    ∧ t.dev.aon = { d.aon with boot := .trained }
                    ∧ (set.fld 1 0 = 0 → (∀ x ∈ rs, .r6400 ∈ x.rates) → t.dev.dram.rate = .r6400)
                    ∧ (set.fld 1 0 = 1 → (∀ x ∈ rs, .r5600 ∈ x.rates) → t.dev.dram.rate = .r5600)
                    ∧ (set.fld 1 0 = 2 → t.dev.dram.rate = .r4800)
                    ∧ (∀ r, t.dev.dram.rate = r → ∀ h cs, cs ≤ last.val → rankPasses rs (halfNum h) cs r = true)
                    ∧ (set.fld 7 6 = 2 → ∀ h < 2, ∀ cs < 3, (t.dev.halfDram h).rank cs = if cs ≤ last.val then .service else .absent)
                    ∧ (set.fld 7 6 = 0 → last.val = 2 → ∀ h < 2, (t.dev.halfDram h).rank 2 = .spare ∧ (t.dev.halfDram h).ranges = [0, 1]))
                  ∧ ∀ (half : Half) (cs : RankSet) rates, set.fld 7 6 = 0 → last.val = 2 → cs.val < 2 →
                      (rs = [⟨half, cs, rates⟩] ∧ .r4800 ∉ rates ∧ lows = []) ∨ (rs = [] ∧ lows = [(half, cs)]) →
                      ∃ t, exec (.trainingComplete pop kit last rs lows) s = .next t ∧ done t
                        ∧ (t.dev.halfDram (halfNum half)).rank cs.val = .excluded ∧ (t.dev.halfDram (halfNum half)).rank 2 = .service
                        ∧ (t.dev.halfDram (halfNum half)).spareUsed = some cs.val
                        ∧ ∃ w, t.dev.ev.waiting = d.ev.waiting ++ [⟨s.now, 1, 0x0002, mkWord [(fcRanksetExcluded, 16)], w⟩]))
      ∧ (∀ read, d.peat.hasJournal = false ∨ d.aon.boot ≠ .trained → exec (.peatMount read) s = .next s)
      ∧ (∀ bads rej, d.peat.hasJournal = true ∨ d.aon.boot ≠ .trained → exec (.firstBootMount bads rej) s = .next s)
      ∧ (d.aon.boot = .trained → (∀ i < 35, (d.dom i).on = true) →
          let ready (t : State) : Prop := s.sameClock t ∧ t.dev.aon.boot = .done ∧ t.dev.pwr.state = .run ∧ t.dev.pwr.since = s.now
            ∧ t.dev.peat.mounted = true ∧ t.dev.hub.resetting = none ∧ t.dev.port.cause.getLsbD 7 = true
          (∀ read, d.peat.hasJournal = true → ∃ t, exec (.peatMount read) s = .next t ∧ ready t
              ∧ (d.peat.bootCopy = none → t.dev.hub.oos = true)
              ∧ (∀ c, read.rejected = [] → d.peat.bootCopy = some c →
                  let q : Peat := { d.peat with board := c.board, rejected := [] }
                  q.hostPages + q.boardAlloc ≤ q.areaPages →
                  t.dev.hub.oos = d.hub.oos ∧ t.dev.peat.allocPages = q.boardAlloc ∧ t.dev.peat.board = c.board)
              ∧ (let rs := d.peat.journal read.badRing
                 d.ten.state ≠ .closed → (∀ r ∈ rs, jKind r = 0x02 → devLpn (jLpn r) = false) →
                  ∀ r ∈ rs, jKind r = 0x02 ∨ jKind r = 0x03 →
                    (∀ q ∈ rs, jKind q = 0x02 ∨ jKind q = 0x03 → jLpn q = jLpn r → q = r ∨ jSeq q < jSeq r) → devLpn (jLpn r) = false →
                    t.dev.peat.lookup (jLpn r) = if jKind r = 0x02 then some (jPhys r) else none))
            ∧ (∀ bads rej, d.peat.hasJournal = false → ∃ t, exec (.firstBootMount bads rej) s = .next t ∧ ready t
              ∧ (∀ b ∈ bads, (t.dev.peat.block (physKey b.toNat)).retired = true)
              ∧ (d.peat.committed + d.peat.tail.length ≤ d.peat.appended → t.dev.peat.tail = [])
              ∧ ∀ c n, d.peat.bootCopy = some c → n < (c.board.getD 4 0).fld 63 32 → devLpn n = false →
                  ∃ ph, t.dev.peat.lookup n = some ph ∧ physCh ph = n % 4))

/-- PFAIL_ASSERT before READY ends the start in OFF; in service it takes every item out, its commands answered,
writes every dirty line of RUN or HUSH back, and begins the loss sequence, which PFAIL_GATE, nothing programming
or erasing, ends in EMBER with the journal tail committed, and PFAIL_RISE lifts. PORST_ASSERT resets everything
but the always-on domain and destroys an open tenant's key. HARD_TRIP and REFCLK_LOSS gate everything until a
cold start and drive THERM_ALERT_N; REFCLK_RETURN resumes the clock. ALWAYS_ON_SUPPLY_LOSS leaves what flash,
fuses and the key store hold, without the journal tail. -/
def Obligations.SupplyLossResult : Prop :=
  ∀ (s : State),
    let d := s.dev
    (d.aon.up = false ∨ d.aon.porstLow = true → exec .pfailAssert s = .next s ∧ exec .porstAssert s = .next s)
      ∧ (d.aon.up = true → d.aon.porstLow = false →
          let low := { s with dev := { d with pwr := { d.pwr with pfailLow := true } } }
          (d.therm.tripped = true ∨ d.aon.boot = .down → exec .pfailAssert s = .next low)
            ∧ (d.therm.tripped = false → d.aon.boot ≠ .down → d.aon.boot ≠ .done → ∃ t, exec .pfailAssert s = .next t ∧ s.sameClock t
                ∧ t.dev.pwr.state = .off ∧ t.dev.aon.boot = .down ∧ t.dev.aon.gpio0 = false ∧ t.dev.pwr.enteredByLoss = true)
            ∧ (d.therm.tripped = false → d.aon.boot = .done → d.pwr.pfail = none → ∃ t, exec .pfailAssert s = .next t ∧ s.sameClock t
                ∧ t.dev.pwr.pfail = some ⟨s.now, false⟩ ∧ t.dev.pwr.trans = none ∧ t.dev.pwr.state = d.pwr.state
                ∧ (∀ m < 16, (t.dev.part m).items = [] ∧ (t.dev.part m).running = none)
                ∧ (d.pwr.state = .run ∨ d.pwr.state = .hush → t.dev.mem.dirty = [] ∧ t.dev.pace.pfailAlarm = true)
                ∧ t.dev.hub.scanQ = [] ∧ t.dev.port.interp = none)
            ∧ (d.therm.tripped = false → d.aon.boot = .done → ∀ pf, d.pwr.pfail = some pf → exec .pfailAssert s = .next low)
            ∧ ∃ t, exec .porstAssert s = .next t ∧ s.sameClock t ∧ t.dev.pwr.state = .off ∧ t.dev.aon.porstLow = true ∧ t.dev.aon.boot = .down
                ∧ t.dev.aon.log = d.aon.log ∧ t.dev.aon.devResets = [] ∧ t.dev.parts = [] ∧ t.dev.fab.cores = [] ∧ t.dev.mem = Mem.init
                ∧ t.dev.port.fifo = [] ∧ t.dev.ten.key = none ∧ t.dev.peat.pages = d.peat.pages ∧ t.dev.therm.tripped = false
                ∧ (∀ r, (t.dev.rail r).mv = 0))
      ∧ (d.pwr.pfail = none ∨ d.flashBusy = true → exec .pfailGate s = .next s)
      ∧ (∀ pf, d.pwr.pfail = some pf → d.flashBusy = false → d.pwr.state ≠ .ember → pf.toOff = false →
          ∃ t, exec .pfailGate s = .next t ∧ s.sameClock t ∧ t.dev.pwr.state = .ember ∧ t.dev.pwr.pfail = none ∧ t.dev.pwr.enteredByLoss = true
            ∧ (d.peat.appended = d.peat.committed + d.peat.tail.length → t.dev.peat.tail = []
                ∧ (d.peat.tail.length ≤ 512 → ∀ c, (c = 0 ∨ c = 2) → d.peat.ringUpto.get 0 c = d.peat.committed →
                    ∀ e ∈ d.peat.tail, ∃ j ∈ t.dev.peat.rings.get [] c, e.2 ∈ j.recs))
            ∧ t.dev.mem.cached = [] ∧ t.dev.dram.selfRefresh = true
            ∧ ∀ i < 35, (t.dev.dom i).on = false)
      ∧ exec .pfailRise s = .next { s with dev := { d with pwr := { d.pwr with pfailLow := false }, pace := { d.pace with pfailAlarm := false } } }
      ∧ (d.aon.up = false ∨ d.therm.tripped = true → exec .hardTrip s = .next s)
      ∧ (d.aon.up = false ∨ d.aon.refclk = false → exec .refclkLoss s = .next s)
      ∧ (let gone (t : State) : Prop := s.sameClock t ∧ t.dev.therm.tripped = true ∧ t.dev.aon.thermAlert = true ∧ t.dev.aon.boot = .down
            ∧ t.dev.fab.cores = [] ∧ t.dev.mem = Mem.init ∧ t.dev.port.fifo = [] ∧ t.dev.peat.pages = d.peat.pages ∧ t.dev.ten.key = d.ten.key
            ∧ (∀ r, (t.dev.rail r).mv = 0) ∧ t.dev.pwr.state = d.pwr.state
         (d.aon.up = true → d.therm.tripped = false → ∃ t, exec .hardTrip s = .next t ∧ gone t ∧ t.dev.aon.log = d.aon.log)
          ∧ (d.aon.up = true → d.aon.refclk = true → ∃ t, exec .refclkLoss s = .next t ∧ gone t ∧ t.dev.aon.refclk = false
              ∧ (t.dev.aon.log.getLast?).map (fun r => (r.code, r.a, r.b)) = some (fcHubFault, 0, 1)))
      ∧ exec .refclkReturn s = .next { s with dev := { d with aon := { d.aon with refclk := true } } }
      ∧ ∃ t, exec .alwaysOnSupplyLoss s = .next t ∧ s.sameClock t ∧ t.dev.aon.up = false ∧ t.dev.aon.log = [] ∧ t.dev.aon.residency = []
          ∧ t.dev.ten = Tenant.init ∧ t.dev.mem = Mem.init ∧ t.dev.port.fifo = [] ∧ t.dev.peat.pages = d.peat.pages ∧ t.dev.peat.rings = d.peat.rings
          ∧ t.dev.peat.tail = [] ∧ t.dev.peat.board = d.peat.board ∧ t.dev.sec.ownerKey = d.sec.ownerKey ∧ t.dev.sec.kin = d.sec.kin
          ∧ t.dev.fab.slots = d.fab.slots

/-- THERMAL_SAMPLE: each die's Tj is its highest reading, and a die that gives none keeps its value (the model's
choice, log entry 92); with the device below 110 °C nothing else but the times of the conditions changes; at 110
°C or more THERMAL_DEGRADE is raised once, and at 115 °C or more the controlled shutdown starts.
THERMAL_DEGRADE_CLEAR 1 s after Tj fell to 105 °C ends the degrade. THERMAL_CAP_FALL after 10 ms at 107 °C or
more lowers the die's cap one below the lower of cap and set pace; THERMAL_CAP_RISE after 100 ms at 102 °C or
less raises it by one, or removes it at the set pace. Before those times nothing changes. -/
def Obligations.ThermalResult : Prop :=
  ∀ (s : State),
    let d := s.dev
    (∀ (l : List Int) x, l ≠ [] → (highest l = x ↔ x ∈ l ∧ ∀ y ∈ l, y ≤ x))
      ∧ (∀ hub a b,
          let tj (i : Nat) (l : List Int) : Int := if l = [] then d.therm.tj.get 0 i else highest l
          let x := max (tj 0 hub) (max (tj 1 a) (tj 2 b))
          let run := exec (.thermalSample hub a b) s
          ((d.aon.up = false → run = .next s)
                  ∧ (d.aon.up = true → ∃ t, run = .next t ∧ s.sameClock t
                      ∧ (∀ i, t.dev.therm.tj.get 0 i = if i = 0 then tj 0 hub else if i = 1 then tj 1 a else if i = 2 then tj 2 b else d.therm.tj.get 0 i)
                      ∧ t.dev.therm.cap = d.therm.cap
                      ∧ (x ≤ 1680 → t.dev.therm.coolSince = some (d.therm.coolSince.getD s.now))
                      ∧ (1680 < x → t.dev.therm.coolSince = none)
                      ∧ (d.sensing = false ∨ x < 1760 ∨ (d.therm.degrade = true ∧ x < 1840) → t = { s with dev := { d with therm := t.dev.therm } }
                          ∧ t.dev.therm.degrade = d.therm.degrade)
                      ∧ (d.sensing = true → 1760 ≤ x → x < 1840 → d.therm.degrade = false →
                          t = { s with dev := { d with therm := t.dev.therm, ev := t.dev.ev, parts := t.dev.parts } }
                          ∧ t.dev.therm.degrade = true
                          ∧ t.dev.ev.waiting = d.ev.waiting ++ [⟨s.now, 2, 0x0010, mkWord [((x.fdiv 16 % 65536).toNat, 0)], 0⟩]
                          ∧ ∀ m < 16, (t.dev.part m).items = (d.part m).items.map Item.caused
                              ∧ (t.dev.part m).running = (d.part m).running.map fun r => { r with met := true, item := r.item.caused })
                      ∧ (d.sensing = true → 1840 ≤ x → d.aon.boot = .done → d.pwr.pfail = none →
                          t.dev.therm.degrade = true ∧ t.dev.pwr.pfail = some ⟨s.now, true⟩
                          ∧ (∃ w, (⟨s.now, 1, 0x0002, mkWord [(fcThermalShutdown, 16)], w⟩ : Ev) ∈ t.dev.ev.waiting)
                          ∧ ∀ m < 16, (t.dev.part m).items = []))))
      ∧ (d.therm.coolSince = none ∨ d.therm.degrade = false → exec .thermalDegradeClear s = .next s)
      ∧ (∀ t0, d.therm.coolSince = some t0 →
          (s.now < t0 + 1000000000 → exec .thermalDegradeClear s = .next s)
            ∧ (d.therm.degrade = true → t0 + 1000000000 ≤ s.now → ∃ t, exec .thermalDegradeClear s = .next t
                ∧ t = { s with dev := { d with therm := { d.therm with degrade := false }, pace := t.dev.pace, parts := t.dev.parts } }))
      ∧ ∀ die : Die,
          let n := Die.num die
          let tj := d.therm.tj.get 0 n
          let c := d.therm.cap.get 7 n
          let put (t : State) (x : Nat) : Prop := t = { s with dev := { d with therm := t.dev.therm, pace := t.dev.pace, parts := t.dev.parts } }
            ∧ t.dev.therm = { d.therm with cap := d.therm.cap.set 7 n x, capAt := d.therm.capAt.set 0 n s.now }
          (tj < 1712 ∨ s.now < d.therm.capAt.get 0 n + 10000000 ∨ d.sensing = false → exec (.thermalCapFall die) s = .next s)
            ∧ (1712 ≤ tj → d.therm.capAt.get 0 n + 10000000 ≤ s.now → d.sensing = true →
                ∃ t, exec (.thermalCapFall die) s = .next t ∧ put t (min c (d.dieSet n) - 1))
            ∧ (1632 < tj ∨ c = 7 ∨ s.now < d.therm.capAt.get 0 n + 100000000 ∨ d.sensing = false → exec (.thermalCapRise die) s = .next s)
            ∧ (tj ≤ 1632 → c ≠ 7 → d.therm.capAt.get 0 n + 100000000 ≤ s.now → d.sensing = true →
                ∃ t, exec (.thermalCapRise die) s = .next t ∧ put t (if d.dieSet n ≤ c + 1 then 7 else c + 1))

/-- DRAM_BURST_READ of a burst without an error, or of one of no rank set, changes nothing; one with a single
nibble in error in some codeword and no more in any is corrected, written back and counted at its rank set; one
with two nibbles in some codeword and no more in any, or read from a location that differs in one or two nibbles
of the folded value, is uncorrectable: an allocation's page is poisoned and listed, and its rank set fails,
which a free spare then stands in for. MIGRATION_PAGE_COPIED, granted, advances the copy, and at the last page
the spare serves. PATROL_READ asks the scrub port for the rank set's next burst, one at a time.
SAME_BANK_REFRESH pays an owed interval while its port is idle or when it is the nearest request; ZQ_CALIBRATION
in idle time or as its limit nears, and MR4_POLL, record their time. SKEW_WINDOW: a subchannel above 40 % of a
busy half counts a window, the tenth raising CHANNEL_SKEW (a subchannel left out carried none: the model's
choice, log entry 92). PARITY_ALERT begins a recovery of components with parity, REPLAY_FAIL counts failed
replays, the third failing the rank set of the oldest command. FREQ_CHANGE_DRAINED, with no transfer at a memory
port, and FREQ_CHANGE_DONE end a change of rate. MERE_FILL_DONE, its transfers granted, ends the fill and makes
its line the most recently used. -/
def Obligations.DramResult : Prop :=
  ∀ (s : State),
    let d := s.dev
    let inError (e : Ecc) (i : Nat) : Nat := ((e.flips.getD i []).eraseDups).length
    let most (e : Ecc) (n : Nat) : Prop := e.moved = 0 ∧ (∀ i < 8, inError e i ≤ n) ∧ ∃ i < 8, inError e i = n
    (∀ (half : Half) (page : BitVec 22) (burst : BitVec 10) use,
        let h := halfNum half
        (∀ ecc, d.rankOfPage h page.toNat = none ∨ d.dram.serves = false ∨ most ecc 0 → exec (.dramBurstRead half page burst ecc use) s = .next s)
          ∧ ∀ cs ecc, d.rankOfPage h page.toNat = some cs → d.dram.serves = true →
              let run := exec (.dramBurstRead half page burst ecc use) s
              let old := ((d.halfDram h).ces.get [] cs).filter fun t => decide (s.now ≤ t + 86400000000000)
              (most ecc 1 →
                  (d.dram.settings.fld 23 8 = 0 ∨ old.length ≠ d.dram.settings.fld 23 8 → run
                    = .next { s with dev := (d.request s.now [⟨.memPort, 6 * h + subOf page.toNat (burst.toNat / 2), 1, 1, some page.toNat⟩]
                        (stewardLst s.now) ⟨none, none, .landing⟩).modHalfDram h fun x => { x with ces := x.ces.set [] cs (old ++ [s.now]) } })
                    ∧ (d.dram.settings.fld 23 8 ≠ 0 → old.length = d.dram.settings.fld 23 8 → ∃ t, run = .next t ∧ s.sameClock t ∧ t.dev.mem = d.mem
                      ∧ (⟨s.now, 1, 0x0002, mkWord [(fcRanksetCeLimit, 16)], BitVec.ofNat 64 (d.devResetCount s.now)⟩ : Ev) ∈ t.dev.ev.waiting))
                ∧ (most ecc 2 ∨ eccMoved ecc = 1 ∨ eccMoved ecc = 2 → (d.halfDram h).rank cs ≠ .spare →
                    (∀ a, use = .alloc a → (d.halfDram h).retired.length < 1024 → page.toNat ∉ (d.halfDram h).retired →
                      ∃ t, run = .next t ∧ s.sameClock t ∧ t.dev.mem = { d.mem with poison := d.mem.poison.set false a.toNat true }
                        ∧ (t.dev.halfDram h).retired = (d.halfDram h).retired ++ [page.toNat]
                        ∧ ((d.halfDram h).rank cs = .service → (d.halfDram h).freeSpare = true →
                            (t.dev.halfDram h).rank cs = .copying ∧ (t.dev.halfDram h).copy = some (cs, 0) ∧ (t.dev.halfDram h).spareUsed = some cs))
                      ∧ (use = .reserve → (d.halfDram h).ranges.length < 2 → ∃ t, run = .next t ∧ s.sameClock t ∧ t.dev.hub.oos = true)))
      ∧ (∀ (half : Half) use,
          let h := halfNum half
          (∀ ecc, (d.halfDram h).copy = none ∨ d.dram.serves = false ∨ d.asking (.copy h) = true → exec (.migrationPageCopied half ecc use) s = .next s)
            ∧ ∀ cs n ecc, (d.halfDram h).copy = some (cs, n) → d.dram.serves = true → d.asking (.copy h) = false → most ecc 0 →
                (n + 1 < d.dram.rankPages → exec (.migrationPageCopied half ecc use) s
                    = .next { s with dev := (d.modHalfDram h fun x => { x with copy := some (cs, n + 1) }).askCopy s.now h })
                  ∧ (d.dram.rankPages ≤ n + 1 → (d.halfDram h).last ≠ cs → ∃ t, exec (.migrationPageCopied half ecc use) s = .next t
                      ∧ t = { s with dev := { d with dram := t.dev.dram } } ∧ (t.dev.halfDram h).copy = none
                      ∧ (t.dev.halfDram h).rank cs = .retired ∧ (t.dev.halfDram h).rank (d.halfDram h).last = .service))
      ∧ (∀ (half : Half) (cs : RankSet),
          let h := halfNum half
          let k := 3 * h + cs.val
          let r := (d.halfDram h).rank cs.val
          let idle : Prop := ∀ i < 6, d.portIdle (6 * h + i) = true
          (d.dram.serves = false → exec (.patrolRead half cs) s = .next s ∧ exec (.zqCalibration half cs) s = .next s)
            ∧ (r = .absent ∨ r = .excluded ∨ r = .retired ∨ d.asking (.patrol k) = true → exec (.patrolRead half cs) s = .next s)
            ∧ (d.dram.serves = true → r = .service ∨ r = .spare ∨ r = .copying → d.asking (.patrol k) = false →
                let n := d.dram.patrol.get 0 k
                let page := d.rankBase h cs.val + n / 1024
                ∃ t r, exec (.patrolRead half cs) s = .next t ∧ t = { s with dev := { d with dram := t.dev.dram, arb := t.dev.arb } }
                  ∧ t.dev.dram = { d.dram with patrol := d.dram.patrol.set 0 k ((n + 1) % (d.dram.rankPages * 1024)) }
                  ∧ t.dev.arb.reqs = d.arb.reqs ++ [r] ∧ r.site = .memPort ∧ r.inst = 6 * h + subOf page (n % 1024 / 2) ∧ r.port = 12
                  ∧ r.job.what = .patrol k ∧ r.page = some page)
            ∧ (r = .absent ∨ (¬ idle ∧ s.now < d.dram.zqAt.get 0 k + 128000000 - 200) → exec (.zqCalibration half cs) s = .next s)
            ∧ (d.dram.serves = true → r ≠ .absent → idle ∨ d.dram.zqAt.get 0 k + 128000000 - 200 ≤ s.now → exec (.zqCalibration half cs) s
                = .next { s with dev := { d with dram := { d.dram with zqAt := d.dram.zqAt.set 0 k s.now } } }))
      ∧ (∀ (sc : Subch) (bank : BitVec 2) (cs : RankSet) interval,
          let i := sc.val
          let b := bank.toNat
          let x := d.sub i
          let again (n : Nat) : State := { s with dev := d.modSub i fun x => { x with
            alertAt := some s.now, replays := n, replayEnd := s.now + 600, replay := x.retry.filter fun c => decide (s.now ≤ c.at_ + d.dram.kit.alertNs) } }
          (d.dram.serves = false → exec (.sameBankRefresh sc bank) s = .next s ∧ exec (.mr4Poll sc cs interval) s = .next s
              ∧ exec (.parityAlert sc) s = .next s ∧ exec (.replayFail sc cs) s = .next s)
            ∧ (x.stopped s.now = true ∨ d.owes s.now i b = false
                ∨ (d.portIdle i = false ∧ ∀ r, d.nextReq s.now .memPort i = some r → r.job.what ≠ .refresh b) → exec (.sameBankRefresh sc bank) s = .next s)
            ∧ (d.dram.serves = true → x.stopped s.now = false → d.owes s.now i b = true → d.portIdle i = true →
                ∃ t, exec (.sameBankRefresh sc bank) s = .next t ∧ t = { s with dev := { d with dram := t.dev.dram, arb := t.dev.arb } }
                  ∧ t.dev.arb.reqs = d.arb.reqs ∧ t.dev.paidTo i b = d.paidTo i b + d.refreshNs i
                  ∧ (∀ j, j ≠ i → t.dev.sub j = d.sub j) ∧ ∀ c, c ≠ b → t.dev.paidTo i c = d.paidTo i c)
            ∧ (d.dram.serves = true → (d.halfDram (i / 6)).rank cs.val ≠ .absent → x.mr4At.get 0 cs.val + 16000000 ≤ s.now →
                ∃ t, exec (.mr4Poll sc cs interval) s = .next t ∧ t = { s with dev := { d with dram := t.dev.dram } }
                  ∧ (t.dev.sub i).mr4At.get 0 cs.val = s.now ∧ (t.dev.sub i).mr4Want.get 0 cs.val = interval
                  ∧ (0 < interval → (t.dev.sub i).interval ≤ interval))
            ∧ (d.dram.kit.parity = false → exec (.parityAlert sc) s = .next s ∧ exec (.replayFail sc cs) s = .next s)
            ∧ (d.dram.serves = true → d.dram.kit.parity = true →
                (x.recovering s.now = false → exec (.parityAlert sc) s = .next (again 0) ∧ exec (.replayFail sc cs) s = .next s)
                  ∧ (x.recovering s.now = true → exec (.parityAlert sc) s = .next s
                      ∧ (x.replays < 2 → exec (.replayFail sc cs) s = .next (again (x.replays + 1)))
                      ∧ (2 ≤ x.replays → ∃ t, exec (.replayFail sc cs) s = .next t ∧ s.sameClock t ∧ (t.dev.sub i).alertAt = none
                          ∧ (t.dev.halfDram (i / 6)).failed.get false ((d.replayRank i).getD cs.val) = true ∧ t.dev.mem = d.mem))))
      ∧ (∀ (half : Half) (bursts : List Nat),
          let n (i : Nat) : Nat := bursts.getD i 0
          let sum := n 0 + n 1 + n 2 + n 3 + n 4 + n 5
          (d.dram.trained = false → exec (.skewWindow half bursts) s = .next s)
          ∧ (d.dram.trained = true → ∃ t, exec (.skewWindow half bursts) s = .next t
              ∧ t = { s with dev := { d with dram := t.dev.dram, ev := t.dev.ev } }
              ∧ ∀ i < 6, let sc := 6 * halfNum half + i
                  let busy := n i * 100 > 40 * sum ∧ sum * 64 > 15360000000
                  (busy → (t.dev.sub sc).skewRuns = (d.sub sc).skewRuns + 1) ∧ (¬ busy → (t.dev.sub sc).skewRuns = 0)
                    ∧ (busy → (d.sub sc).skewRuns = 9 → ∃ e ∈ t.dev.ev.waiting, e.code = 0x0070 ∧ e.source = 8
                        ∧ e.w2 = mkWord [(sc, 0), (n i * 100 / sum, 8)])))
      ∧ (d.dram.freq = none → exec .freqChangeDrained s = .next s ∧ ∀ l, exec (.freqChangeDone l) s = .next s)
      ∧ (∀ t0, d.dram.freq = some (t0, false) →
          ((∃ x ∈ d.arb.holders, x.site = .memPort) → exec .freqChangeDrained s = .next s)
            ∧ ((∀ x ∈ d.arb.holders, x.site ≠ .memPort) → exec .freqChangeDrained s
                = .next { s with dev := { d with dram := { d.dram with refreshFrom := s.now, freq := some (t0, true), selfRefresh := true } } })
            ∧ ∀ l, exec (.freqChangeDone l) s = .next s)
      ∧ (∀ t0, d.dram.freq = some (t0, true) →
          exec .freqChangeDrained s = .next s
            ∧ ∀ l : List (Subch × RankSet), ∃ t, exec (.freqChangeDone l) s = .next t ∧ s.sameClock t ∧ t.dev.dram.freq = none
              ∧ t.dev.dram.low = (!d.dram.low) ∧ t.dev.mem = d.mem
              ∧ (l.length ≤ 1 ∨ d.dram.kit.parity = false → t = { s with dev := { d with dram := t.dev.dram } } ∧ t.dev.dram.selfRefresh = false
                  ∧ t.dev.dram.halves = d.dram.halves ∧ t.dev.dram.subs = d.dram.subs
                  ∧ ∀ h < 2, ∀ cs < 3, (d.halfDram h).rank cs ≠ .absent → t.dev.dram.zqAt.get 0 (3 * h + cs) = s.now)
              ∧ ∀ a b : Subch × RankSet, l = [a, b] → d.dram.kit.parity = true → (d.sub b.1.val).replays < 2 →
                  (t.dev.sub b.1.val).replays = (d.sub b.1.val).replays + 1 ∧ (t.dev.sub b.1.val).alertAt = some s.now)
      ∧ ∀ (half : Half) line,
          let ovr (f : Fill) : Bool := f.half == half && decide (f.line ≤ line) && decide (line < f.line + f.count) && f.lpns.isEmpty
          (d.mem.fills.find? ovr = none → exec (.mereFillDone half line) s = .next s)
            ∧ ∀ f, d.mem.fills.find? ovr = some f →
                (d.asking (.fill half f.line) = true → exec (.mereFillDone half line) s = .next s)
                  ∧ (d.asking (.fill half f.line) = false → ∃ t, exec (.mereFillDone half line) s = .next t ∧ s.sameClock t
                      ∧ t.dev.mem.fills = d.mem.fills.erase f ∧ t.dev.mem.bytes = d.mem.bytes
                      ∧ (f.count = 512 → d.reservedLine f.line = true → t.dev.mem.full.get false (f.line / 512) = true)
                      ∧ (f.count = 1 → d.mem.full.get false (f.line / 512) = false → 0 < d.cacheSets (halfNum half) →
                          t.dev.mem.cached.head? = some (half, f.line)))

/-- FLASH_OP_ISSUE asks the channel for the first work that waits there where R37 allows it, and starts it where
nothing else asks: a program takes the next page of its block with its INTENT in the journal, and a map page's
program waits for those under way. PEAT_PROGRAM_DONE writes the page's sectors and maps the logical page to the
new physical page with DONE in the journal, or on failure retires the block and programs again, or ends the
waits FAULTED once their records are committed; a failed commit retires its block of the ring and is repeated,
and a commit held by both rings empties the tail into them, and a key-store write that waited for it opens the
tenant. PEAT_ERASE_DONE clears the block, counting the erase. BLOCK_ERASE_START queues the erase of a spent
block, JOURNAL_TAIL_TIMER a commit 100 ms after the oldest record. PEAT_READ_DONE, its transfer granted, with a
sector above 40 bit errors or with metadata of another page poisons the page and allows three re-reads, above 24
marks the block for relocation, and otherwise serves the fills that wait; PEAT_REREAD and PEAT_PATROL take their
turn. PEAT_PROGRAM queues its pages and waits for them; PEAT_ERASE releases its pages and waits for the commit.
-/
def Obligations.PeatResult : Prop :=
  ∀ (s : State),
    let d := s.dev
    let x := d.peat
    let put (y : Peat) : State := { s with dev := { d with peat := y } }
    let inRing (t : State) (c : Nat) (r : JRec) : Prop := ∃ j ∈ t.dev.peat.rings.get [] c, r ∈ j.recs
    (∀ ch : FlashCh,
        let c := ch.toNat
        let q := x.queue.get [] c
        let own (t : State) : Prop := t = { s with dev := { d with peat := t.dev.peat } }
        (q = [] ∨ d.flashOn = false ∨ (x.busy.get none c).isSome = true → exec (.flashOpIssue ch) s = .next s)
          ∧ (∀ op l, q = op :: l → d.mayIssue s.now c op.kind = false ∨ (op.kind = .program ∧ x.place c = none)
              ∨ (op.kind = .program ∧ isMapPage op.lpn = true ∧ ∃ e ∈ x.busy, e.2.isSome = true) → exec (.flashOpIssue ch) s = .next s)
          ∧ (∀ op l, q = op :: l → d.flashOn = true → x.busy.get none c = none → d.mayIssue s.now c op.kind = true →
              (∀ r ∈ d.arb.reqs, r.job.what ≠ .flash c ∧ ¬ (r.site = .flashChannel ∧ r.inst = c)) →
              let run := exec (.flashOpIssue ch) s
              let asked (t : State) : Prop := t = { s with dev := { d with peat := t.dev.peat, arb := t.dev.arb } } ∧ t.dev.arb.reqs = d.arb.reqs
                ∧ ∃ h ∈ t.dev.arb.holders, h.site = .flashChannel ∧ h.inst = c ∧ h.since = s.now ∧ h.port = op.kind.port
              (op.kind = .erase → ∃ t, run = .next t ∧ asked t
                    ∧ t.dev.peat = { x with queue := x.queue.set [] c l, busy := x.busy.set none c (some { op with started := s.now }) })
                ∧ (op.kind = .commit → ∃ t, run = .next t ∧ asked t
                    ∧ t.dev.peat = { x with queue := x.queue.set [] c l, busy := x.busy.set none c (some { op with seq := x.appended, started := s.now }) })
                ∧ ∀ tgt b, op.kind = .program → x.place c = some (tgt, b) → x.tail.length + 1 < 512 →
                    (isMapPage op.lpn = false ∨ ∀ e ∈ x.busy, e.2 = none) →
                    let ph := physPage c tgt b (x.block (blockKey c tgt b)).next
                    ∃ t, run = .next t ∧ asked t ∧ t.dev.peat.queue.get [] c = l
                      ∧ t.dev.peat.busy.get none c = some { op with phys := ph, seq := x.seq + 1, data := x.opData op, started := s.now }
                      ∧ (t.dev.peat.block (blockKey c tgt b)).next = (x.block (blockKey c tgt b)).next + 1
                      ∧ t.dev.peat.tail = x.tail ++ [(s.now, journalRec (x.seq + 1) op.lpn 0x01 ph)] ∧ t.dev.peat.pages = x.pages)
          ∧ (x.busy.get none c = none → ∀ ok, exec (.peatProgramDone ch ok) s = .next s ∧ exec (.peatEraseDone ch ok) s = .next s)
          ∧ ∀ op, x.busy.get none c = some op →
              (op.kind = .erase → ∀ ok, exec (.peatProgramDone ch ok) s = .next s)
                ∧ (op.kind ≠ .erase → ∀ ok, exec (.peatEraseDone ch ok) s = .next s)
                ∧ (op.kind = .program → x.waits = [] → ∃ t, exec (.peatProgramDone ch true) s = .next t ∧ own t
                    ∧ t.dev.peat.busy.get none c = none ∧ (op.dead = true → t.dev.peat.lookup op.lpn = none)
                    ∧ (op.dead = false → t.dev.peat.lookup op.lpn = some op.phys ∧ t.dev.peat.misread op.lpn = false
                        ∧ (op.data.length = 16384 → t.dev.peat.readPage op.lpn = op.data)
                        ∧ t.dev.peat.poison.get false op.lpn = false ∧ t.dev.peat.appended = x.appended + 1
                        ∧ ∀ n, n ≠ op.lpn → t.dev.peat.lookup n = x.lookup n))
                ∧ (op.kind = .program → x.mayRetire = true → ∃ t, exec (.peatProgramDone ch false) s = .next t ∧ own t
                    ∧ t.dev.peat.busy.get none c = none ∧ (t.dev.peat.block (physKey op.phys)).retired = true
                    ∧ t.dev.peat.retiredBlocks = x.retiredBlocks + 1
                    ∧ (t.dev.peat.queue.get [] c).head? = some { op with phys := 0, seq := 0 } ∧ t.dev.peat.pages = x.pages)
                ∧ (∀ w, op.kind = .program → x.mayRetire = false → x.waits = [w] → op.id ∈ w.left →
                    (x.appended ≤ x.committed → s.owes w.id → ∃ t, exec (.peatProgramDone ch false) s = .next t
                        ∧ s.replied t w.id 0x0300 [BitVec.ofNat 64 w.done] ∧ t.dev.peat.waits = [] ∧ t.dev.peat.busy.get none c = none
                        ∧ t.dev.peat.pages = x.pages)
                      ∧ (x.committed < x.appended → ∃ t, exec (.peatProgramDone ch false) s = .next t ∧ own t
                        ∧ t.dev.peat.waits = [{ w with left := [], need := x.appended, failed := true }] ∧ t.dev.peat.busy.get none c = none
                        ∧ t.dev.peat.commitWaits 0 = true ∧ t.dev.peat.commitWaits 2 = true ∧ t.dev.peat.pages = x.pages))
                ∧ (op.kind = .commit →
                    let blk := (x.journalBlocks c).getD (nextNum (x.rings.get [] c) / 1024 % 64) 0
                    (x.mayRetire = false → exec (.peatProgramDone ch false) s
                        = .next (put { x with busy := x.busy.set none c none, queue := x.queue.set [] c ({ op with phys := 0, seq := 0 } :: q) }))
                      ∧ (x.mayRetire = true → ∃ t, exec (.peatProgramDone ch false) s = .next t ∧ own t ∧ t.dev.peat.busy.get none c = none
                        ∧ (t.dev.peat.block (physKey (physPage c 0 blk 0))).retired = true
                        ∧ (t.dev.peat.queue.get [] c).head? = some { op with phys := 0, seq := 0 } ∧ t.dev.peat.rings = x.rings))
                ∧ (op.kind = .commit → (c = 0 ∨ c = 2) → x.ringUpto.get 0 (2 - c) = op.seq → x.ringUpto.get 0 c ≤ op.seq →
                    x.committed + x.tail.length = op.seq →
                    ∃ t, exec (.peatProgramDone ch true) s = .next t ∧ s.sameClock t ∧ t.dev.peat.tail = [] ∧ t.dev.peat.committed = op.seq
                      ∧ t.dev.peat.busy.get none c = none
                      ∧ (x.ringUpto.get 0 c = x.committed → x.tail.length ≤ 512 → ∀ e ∈ x.tail, inRing t c e.2)
                      ∧ (x.waits = [] → own t)
                      ∧ ∀ w k tn key, x.waits = [w] → w.left = [] → w.failed = false → w.need ≤ op.seq → w.ks = some k → k.tenant = some (tn, key) →
                          s.owes w.id →
                          s.replied t w.id 0 w.words ∧ t.dev.ten.state = .open_ ∧ t.dev.ten.id = tn ∧ t.dev.ten.key = some key
                            ∧ t.dev.sec.ownerKey = k.owner ∧ t.dev.sec.kin = k.kin ∧ t.dev.sec.lastCounter = k.counter)
                ∧ (op.kind = .erase →
                    (∃ t, exec (.peatEraseDone ch true) s = .next t ∧ own t ∧ t.dev.peat.busy.get none c = none
                        ∧ t.dev.peat.block (physKey op.phys) = { x.block (physKey op.phys) with
                            erases := (x.block (physKey op.phys)).erases + 1, next := 0, relocate := false, interrupted := false }
                        ∧ t.dev.peat.pages = x.pages.filter fun e => physKey e.1 ≠ physKey op.phys)
                      ∧ (x.mayRetire = true → ∃ t, exec (.peatEraseDone ch false) s = .next t ∧ own t
                          ∧ (t.dev.peat.block (physKey op.phys)).retired = true)
                      ∧ (x.mayRetire = false → exec (.peatEraseDone ch false) s = .next (put { x with busy := x.busy.set none c none }))))
      ∧ (∀ block : BitVec 32,
          let first := physPage (physCh block.toNat) (physTgt block.toNat) (physBlk block.toNat) 0
          (d.flashOn = false ∨ x.spent first = false ∨ x.erasing first = true → exec (.blockEraseStart block) s = .next s)
            ∧ (d.flashOn = true → x.spent first = true → x.erasing first = false → exec (.blockEraseStart block) s
                = .next (put { x with queue := x.queue.modify [] (physCh first) (· ++ [⟨.erase, 0, first, 0, [], s.now, 0, false, 0⟩]) })))
      ∧ (x.tail = [] → exec .journalTailTimer s = .next s)
      ∧ (∀ t0 r l, x.tail = (t0, r) :: l →
          (s.now < t0 + 100000000 → exec .journalTailTimer s = .next s)
            ∧ (t0 + 100000000 ≤ s.now → x.appended ≠ x.committed → ∃ t, exec .journalTailTimer s = .next t
                ∧ t = put { x with queue := t.dev.peat.queue } ∧ t.dev.peat.commitWaits 0 = true ∧ t.dev.peat.commitWaits 2 = true))
      ∧ (∀ (lpn : BitVec 32) (es : List Nat),
          let n := lpn.toNat
          (x.lookup n = none ∨ d.aon.gpio1 = false ∨ d.asking (.peatRead n) = true
              ∨ ((∀ e ∈ es, e ≤ 24) ∧ x.misread n = false ∧ ∀ f ∈ d.mem.fills, n ∉ f.lpns) → exec (.peatReadDone lpn es) s = .next s)
            ∧ (∀ ph, x.lookup n = some ph → d.aon.gpio1 = true → d.asking (.peatRead n) = false →
                ((∃ e ∈ es, 40 < e) ∨ x.misread n = true → ∃ t, exec (.peatReadDone lpn es) s = .next t ∧ s.sameClock t
                    ∧ t.dev.peat.poison.get false n = true ∧ t.dev.peat.rereads.get 0 n = 3 ∧ t.dev.mem.bytes = d.mem.bytes
                    ∧ t.dev.mem.fills = d.mem.fills.filter (fun f => !f.lpns.contains n)
                    ∧ (t.dev.aon.log.getLast?).map (fun r => (r.code, r.a, r.b)) = some (fcPeatUncorrectable, n, ph))
                  ∧ ((∀ e ∈ es, e ≤ 40) → x.misread n = false → ∃ t, exec (.peatReadDone lpn es) s = .next t ∧ s.sameClock t
                    ∧ (∀ f ∈ t.dev.mem.fills, n ∉ f.lpns) ∧ t.dev.mem.bytes = d.mem.bytes ∧ t.dev.peat.pages = x.pages
                    ∧ ((∀ e ∈ es, e ≤ 24) → t.dev.peat = x)
                    ∧ ((∃ e ∈ es, 24 < e) → (t.dev.peat.block (physKey ph)).relocate = true)))
            ∧ (x.rereads.get 0 n = 0 ∨ d.flashOn = false → ∀ ok, exec (.peatReread lpn ok) s = .next s)
            ∧ (0 < x.rereads.get 0 n → d.flashOn = true →
                (∀ ok, ok = false ∨ x.misread n = true → exec (.peatReread lpn ok) s
                    = .next (put { x with rereads := x.rereads.set 0 n (x.rereads.get 0 n - 1) }))
                  ∧ (x.misread n = false → ∃ t, exec (.peatReread lpn true) s = .next t ∧ s.sameClock t ∧ t.dev.peat.poison.get false n = false
                      ∧ t.dev.peat.rereads.get 0 n = 0 ∧ t.dev.peat.programming n = true)))
      ∧ (d.flashOn = false ∨ x.map = [] → exec .peatPatrol s = .next s)
      ∧ (d.flashOn = true →
          ∀ e, (x.map.find? (fun e => decide (x.patrolLpn < e.1)) = some e ∨ ((∀ f ∈ x.map, f.1 ≤ x.patrolLpn) ∧ x.map.head? = some e)) →
            ∃ t, exec .peatPatrol s = .next t ∧ t = { s with
                  dev := { d with peat := { x with patrolLpn := e.1, patrolAt := s.now }, arb := t.dev.arb } }
              ∧ (d.asking (.peatRead e.1) = true → t.dev.arb = d.arb)
              ∧ (d.asking (.peatRead e.1) = false → ∃ r, t.dev.arb = { d.arb with reqs := d.arb.reqs ++ [r] } ∧ r.site = .flashChannel
                  ∧ r.inst = physCh (e.2.getD 0) ∧ r.port = 3 ∧ r.job.what = .peatRead e.1 ∧ r.lst = lstOf s.now (s.now + 10000000)))
      ∧ ∀ (p : Packet) first n, p.w 1 = 0 → (p.w 0).toNat % 2 ^ 12 = 0 → (p.w 2).toNat = first + n * 2 ^ 32 → first < 2 ^ 32 → 0 < n →
          first + n ≤ x.hostPages → d.pwr.state ≠ .listen → d.imageHolds first n = false →
          let taken (t : State) : Prop := s.sameClock t ∧ t = { s with dev := { d with peat := t.dev.peat, port := { d.port with interp := none } } }
          (s.holds 0x70 p → n ≤ 64 → p.words.length = 4 + 2048 * n → (∀ w ∈ x.waits, w.ready x = false) → ∃ t w, exec .peatProgram s = .next t ∧ taken t
              ∧ t.dev.peat.waits.getLast? = some w ∧ w.id = p.id ∧ w.left = rangeFrom x.opNext n ∧ w.done = 0 ∧ t.dev.peat.opNext = x.opNext + n
              ∧ (∀ l, first ≤ l → l < first + n → ∃ op ∈ t.dev.peat.queue.get [] (x.channelOf l), op.kind = .program ∧ op.lpn = l
                ∧ op.id ∈ w.left ∧ op.data = wordsBytes ((p.words.drop (3 + 2048 * (l - first))).take 2048)) ∧ t.dev.peat.pages = x.pages)
            ∧ (s.holds 0x71 p → n < 2 ^ 16 → p.words.length = 4 → x.waits = [] → x.committed ≤ x.appended →
                (∃ l, first ≤ l ∧ l < first + n ∧ (x.lookup l).isSome = true) → ∃ t w, exec .peatErase s = .next t ∧ taken t
                  ∧ t.dev.peat.waits = [w] ∧ w.id = p.id ∧ w.words = [BitVec.ofNat 64 n] ∧ w.need = t.dev.peat.appended
                  ∧ ∀ l, first ≤ l → l < first + n → t.dev.peat.lookup l = none)
            ∧ (s.serves 0x71 p → n < 2 ^ 16 → p.words.length = 4 → x.waits = [] → x.appended = x.committed →
                (∀ l, first ≤ l → l < first + n → x.lookup l = none) →
                ∃ t, exec .peatErase s = .next t ∧ s.answered t p 0 [BitVec.ofNat 64 n] ∧ t.dev.peat.waits = [])

/-- CSI_FRAME_START of a channel that an enabled slot of a powered port takes: the link is up, the channel's
number is one on, an idle pipe takes the frame for its first slot of that source and counts it, and a busy one
skips it. CSI_LINE of the frame's data type appends its samples, a bad or wrongly long one its replacement, and
any line with a valid header keeps the link up. CSI_FRAME_END before the last line, an overflow of the port's
input buffer (of a pipe's output staging: that pipe's frame), 2 ms without a packet and a link that goes down
truncate the frames in progress; without a valid packet for LINK_TIMEOUT the link is down, with LINK.
PIPE_FRAME_COMPLETE of a frame that has its lines, every transfer of its outputs granted, writes its outputs and
frees the pipe; of one that has not it does nothing. CAMERA_SET of a block within its rules takes effect at once
on a port without a link, and is answered all ones; with a link it waits for its Frame Start; a slot that
clashes with another is REFUSED_STATE, a block out of range BAD_PARAM. -/
def Obligations.CameraResult : Prop :=
  ∀ (s : State),
    let d := s.dev
    (∀ (port : CsiPort) (vc : BitVec 4),
        let t := port.toNat
        let v := vc.toNat
        let x := d.csi t
        (d.csiPowered t = false ∨ (x.slots = [] ∧ d.cam.waits = []) → ∀ n, exec (.csiFrameStart port vc n) s = .next s)
          ∧ (d.csiPowered t = false ∨ x.slots = [] → exec (.csiFrameEnd port vc) s = .next s
              ∧ ∀ dt bs c o, exec (.csiLine port vc dt bs c o) s = .next s)
          ∧ (d.hubServes = true → x.takes v = true →
              (∀ n, d.cam.waits = [] → ∃ u, exec (.csiFrameStart port vc n) s = .next u
                  ∧ u = { s with dev := { d with cam := u.dev.cam, ev := u.dev.ev, cas := u.dev.cas, arb := u.dev.arb } }
                  ∧ (u.dev.csi t).link = true ∧ (u.dev.csi t).lastPacket = s.now ∧ (u.dev.csi t).slots = x.slots
                  ∧ (let k := (x.numbers.get 0 v + 1) % 2 ^ 32
                     (u.dev.csi t).numbers.get 0 v = k ∧ (u.dev.csi t).frames.get none v = some ⟨k, n.toNat, s.now⟩
                      ∧ ∀ i < 4, ∀ y, (d.pipe i).slots = [y] → y.num < 4 → y.from_ t v = true →
                          ((d.pipe i).cur = none → u.dev.pipe i = ⟨[{ y with frames := y.frames + 1 }],
                              some ⟨y, t, v, ⟨k, n.toNat, s.now⟩, [], false, false, 0, 0⟩⟩)
                            ∧ ((d.pipe i).cur.isSome = true → (u.dev.pipe i).slots = [{ y with skipped := y.skipped + 1 }]))
                  ∧ (∀ w, w ≠ v → (u.dev.csi t).numbers.get 0 w = x.numbers.get 0 w)
                  ∧ (x.link = true → (∀ i < 4, (d.pipe i).cur = none) → u.dev.ev = d.ev)
                  ∧ (x.link = false → (⟨s.now, 6, 0x0052, mkWord [(t, 0), (1, 8)], 0⟩ : Ev) ∈ u.dev.ev.waiting))
                ∧ (∀ i < 4, ∀ f, (d.pipe i).cur = some f → f.port = t → f.vc = v → f.truncated = false → f.lines.length < PipeBlock.height f.slot.block →
                    (∀ (dt : BitVec 6) bs chk ovr, dt.toNat = PipeBlock.dataType f.slot.block →
                        (ovr = .none ∨ ∃ p : BitVec 2, ovr = .staging p ∧ p.toNat ≠ i) → ∃ u, exec (.csiLine port vc dt bs chk ovr) s = .next u
                        ∧ u = { s with dev := { d with cam := u.dev.cam, ev := u.dev.ev, cas := u.dev.cas, arb := u.dev.arb } }
                        ∧ (let bits := (rawBits dt.toNat).getD 8
                           let w := PipeBlock.width f.slot.block
                           (chk = .good → bs.length * 8 = w * bits → (u.dev.pipe i).cur
                              = some { f with lines := f.lines ++ [unpackRaw bits bs], received := f.received + 1 })
                            ∧ (chk ≠ .good ∨ bs.length * 8 ≠ w * bits → (u.dev.pipe i).cur
                              = some { f with lines := f.lines ++ [if 4 ≤ f.lines.length then f.lines.getD (f.lines.length - 4) [] else List.replicate w 0]
                                              received := f.received + 1, badLines := f.badLines + 1 })))
                      ∧ (∀ dt bs chk ovr, (ovr = .input ∨ ∃ p : BitVec 2, ovr = .staging p ∧ p.toNat = i) →
                          ∃ u, exec (.csiLine port vc dt bs chk ovr) s = .next u ∧ (u.dev.pipe i).cur = some { f with truncated := true, overrun := true }
                            ∧ ∃ e ∈ u.dev.ev.waiting, e.code = 0x0053 ∧ e.source = 6 ∧ e.w2 = mkWord [(t, 0), (v, 4)])
                      ∧ ∃ u e, exec (.csiFrameEnd port vc) s = .next u ∧ (u.dev.pipe i).cur = some { f with truncated := true }
                          ∧ e ∈ u.dev.ev.waiting ∧ e.code = 0x0053 ∧ e.source = 6 ∧ e.w2 = mkWord [(t, 0), (v, 4)])
                ∧ ∀ dt bs chk ovr, ∃ u, exec (.csiLine port vc dt bs chk ovr) s = .next u
                    ∧ (u.dev.csi t).link = (x.link || chk != .badHeader) ∧ (u.dev.csi t).lastAny = s.now))
      ∧ (∀ port : CsiPort,
          let t := port.toNat
          let x := d.csi t
          (d.hubServes = false ∨ s.now < x.lastAny + 2000000 → exec (.csiPacketGap port) s = .next s)
            ∧ (d.hubServes = true → x.lastAny + 2000000 ≤ s.now → ∃ u, exec (.csiPacketGap port) s = .next u
                ∧ u = { s with dev := { d with cam := u.dev.cam, ev := u.dev.ev, arb := u.dev.arb } }
                ∧ ∀ i < 4, ∀ f, (d.pipe i).cur = some f → f.port = t → f.vc < 16 → f.ended = false → (u.dev.pipe i).cur = some { f with truncated := true })
            ∧ (x.slots = [] ∨ x.link = false → exec (.csiLinkTimeout port) s = .next s)
            ∧ ∀ y l, x.slots = y :: l → d.csiPowered t = true → x.link = true →
                (s.now < x.lastPacket + y.w4.fld 13 0 * 1000000 → exec (.csiLinkTimeout port) s = .next s)
                  ∧ (x.lastPacket + y.w4.fld 13 0 * 1000000 ≤ s.now → ∃ u, exec (.csiLinkTimeout port) s = .next u ∧ s.sameClock u
                      ∧ (⟨s.now, 6, 0x0052, mkWord [(t, 0), (0, 8)], 0⟩ : Ev) ∈ u.dev.ev.waiting ∧ u.dev.mem = d.mem
                      ∧ (d.cam.waits = [] → (u.dev.csi t).link = false ∧ (u.dev.csi t).slots = x.slots)))
      ∧ (∀ pipe : BitVec 2,
          let i := pipe.toNat
          ((d.pipe i).cur = none ∨ d.hubServes = false ∨ d.asking (.pipe i) = true → exec (.pipeFrameComplete pipe) s = .next s)
            ∧ ∀ f, (d.pipe i).cur = some f → d.hubServes = true → d.asking (.pipe i) = false →
                (f.truncated = false → f.lines.length < PipeBlock.height f.slot.block → exec (.pipeFrameComplete pipe) s = .next s)
                  ∧ (f.truncated = true ∨ PipeBlock.height f.slot.block ≤ f.lines.length →
                      ∃ u, exec (.pipeFrameComplete pipe) s = .next u ∧ s.sameClock u ∧ (u.dev.pipe i).cur = none ∧ u.dev.port = d.port
                        ∧ (∀ j, j ≠ i → u.dev.pipe j = d.pipe j)
                        ∧ (PipeBlock.outputs f.slot.block = [] → PipeBlock.statsHandle f.slot.block = 0 → u.dev.mem = d.mem)
                        ∧ ∀ j o a, PipeBlock.outputs f.slot.block = [(j, o)] → PipeBlock.statsHandle f.slot.block = 0 → d.byHandle o.handle = some a →
                            let p := prepared f.slot.block ((rawBits (PipeBlock.dataType f.slot.block)).getD 8) f.lines
                            let buf := o.buffer f.slot.block (colourPlanes f.slot.block p) (irPlane f.slot.block p)
                            let at_ := a.p0 * 65536 + o.offset + (if o.buffers = 0 then 0 else f.slot.frames % o.buffers) * o.size (PipeBlock.mosaic f.slot.block)
                            ∀ k, u.dev.mem.bytes.get 0 k = if at_ ≤ k ∧ k < at_ + buf.length then buf.getD (k - at_) 0 else d.mem.bytes.get 0 k))
      ∧ ∀ (p : Packet), p.w 1 = 0 → (p.w 0).toNat % 2 ^ 12 = 0 → d.pwr.state ≠ .listen →
          (∀ t, s.serves 0x50 p → (p.w 2).toNat = t → t < 8 → p.words.length = 6 →
            let w3 := p.w 3
            let w4 := p.w 4
            let wait : CamWait := ⟨some p.id, p.id.ctx, t, [w3, w4]⟩
            let x := d.csi t
            let num := ((x.slots.find? (·.ctx == p.id.ctx)).map (·.num)).getD (freeNum (x.slots.map (·.num)))
            (portBlockOk w3 w4 = false → ∃ u, exec .cameraSet s = .next u ∧ s.onlyAnswered u p 0x0600 [])
              ∧ (portBlockOk w3 w4 = true → d.cam.waits = [] →
                  (∀ y ∈ x.slots, w3.getLsbD 0 = true → y.ctx ≠ p.id.ctx → (portMask y.w3 &&& portMask w3) ≠ 0 →
                      ∃ u, exec .cameraSet s = .next u ∧ s.onlyAnswered u p 0x0101 [])
                    ∧ (portConflict x.slots p.id.ctx w3 w4 = false →
                        (x.link = false → ∃ u, exec .cameraSet s = .next u ∧ s.answered u p 0 [BitVec.allOnes 64] ∧ u.dev.cam.waits = []
                            ∧ (u.dev.csi t).slots = x.slots.filter (·.ctx != p.id.ctx) ++ (if w3.getLsbD 0 then [⟨num, p.id.ctx, w3, w4⟩] else [])
                            ∧ (∀ j, j ≠ t → u.dev.csi j = d.csi j) ∧ (w3.getLsbD 0 = true → u.dev.cam.pipes = d.cam.pipes) ∧ u.dev.mem = d.mem)
                          ∧ (x.link = true → exec .cameraSet s = .next { s with dev := { d with
                              port := { d.port with interp := none }, cam := { d.cam with waits := [wait] } } }))))
            ∧ ∀ i, s.serves 0x50 p → (p.w 2).toNat = 8 + i → i < 4 → p.words.length = 96 → d.cam.waits = [] →
                let b : PipeBlock := (p.words.drop 3).take 92
                (PipeBlock.ok b = false ∨ (blockHandleWords b).any handleBad = true → ∃ u, exec .cameraSet s = .next u ∧ s.onlyAnswered u p 0x0600 [])
                  ∧ (PipeBlock.ok b = true → (blockHandleWords b).any handleBad = false → PipeBlock.enable b = true → PipeBlock.outputs b = [] → PipeBlock.statsHandle b = 0 →
                      (d.csi (PipeBlock.port b)).link = false → (d.pipe i).slots = [] →
                      PipeBlock.width b * PipeBlock.height b * PipeBlock.fpsMax b ≤ 1200000000 →
                      ∃ u, exec .cameraSet s = .next u ∧ s.answered u p 0 [BitVec.allOnes 64]
                        ∧ u.dev.pipe i = ⟨[⟨0, p.id.ctx, b, 0, 0, 0⟩], (d.pipe i).cur⟩ ∧ (∀ j, j ≠ i → u.dev.pipe j = d.pipe j)
                        ∧ u.dev.cam.csi = d.cam.csi)

/-- AUDIO_SET of a block that enables nothing, the link down, is answered all ones and waits for the next block;
with the link up it waits and is answered at that block's start. A present pin that becomes active or inactive
moves the link. AUDIO_BLOCK_COMPLETE of the block that ended last, a slot enabled, it enters the ring under its
number and starts a Tier 0 frame, and a block already completed changes nothing. PREROLL_GET answers the ring's
words. WAKE_SET without an image or a weave takes effect at the next frame. MOTION_WATCH_FRAME counts the
watched channel's frames. TIER0_FRAME_DONE of a table without programs ends the frame, a rule on a score of 0
firing as its limit has it: a tier 2 rule raises WAKE, and a tier 1 rule in LISTEN goes to HUSH for its run.
TIER1_HALT takes the verdict, TIER1_LIMIT_EXPIRE stops the run with cause 0xF1, and LINGER_EXPIRE falls back to
LISTEN. -/
def Obligations.ListeningResult : Prop :=
  ∀ (s : State),
    let d := s.dev
    let wakeEv (tier cause : Nat) : Ev := ⟨s.now, 5, 0x0040, mkWord [(tier, 0), (cause, 8)], 0⟩
    (∀ (p : Packet), p.w 1 = 0 → (p.w 0).toNat % 2 ^ 12 = 0 →
        (∀ b : AudBlock, s.serves 0x51 p → p.words.length = 8 → p.w 2 = 0 → b = (p.words.drop 3).take 4 → d.aud.waits = [] → d.aud.slots = [] →
            (b.ok = false ∨ handleBad b.handle = true ∨ handleBad b.knotWeave = true → ∃ t, exec .audioSet s = .next t ∧ s.onlyAnswered t p 0x0600 [])
              ∧ (b.ok = true → handleBad b.handle = false → handleBad b.knotWeave = false → b.writes = false →
                  let wait (id : Option CmdId) : Audio := { d.aud with waits := [⟨id, p.id.ctx, b, s.now / 10000000 + 1⟩] }
                  (d.aud.link = false → ∃ t, exec .audioSet s = .next t ∧ s.answered t p 0 [BitVec.allOnes 64] ∧ t.dev.aud = wait none
                      ∧ t.dev.mem = d.mem)
                    ∧ (d.aud.link = true → exec .audioSet s = .next { s with dev := { d with
                        port := { d.port with interp := none }, aud := wait (some p.id) } })))
          ∧ (∀ x, s.serves 0x53 p → p.words.length = 5 → d.aud.slotOf p.id.ctx = some x →
              let mask := (p.w 2).toNat % 2 ^ 16
              let ms := (p.w 2).toNat / 2 ^ 16
              mask ≠ 0 → mask &&& AudBlock.mask x.words = mask → 0 < ms → ms ≤ 10000 → (p.w 3).toNat ≤ s.now → 0 < d.aud.nextBlock →
              (p.w 3 = 0 → ms * 1000000 ≤ 10000000 * d.aud.nextBlock →
                ∃ t rs k, exec .prerollGet s = .next t ∧ s.onlyAnswered t p 0 (BitVec.ofNat 64 (10000000 * k) :: rs)
                  ∧ k = max ((10000000 * d.aud.nextBlock - 1000000 * ms) / 10000000) (d.aud.nextBlock - 1024)
                  ∧ rs.head? = some (mkWord [(mask, 0), (160 * (d.aud.nextBlock - k), 16)])))
          ∧ (s.serves 0x52 p → p.words.length = 7 + (p.w 4).toNat / 2 ^ 56 % 32 → (p.w 4).toNat / 2 ^ 56 % 32 ≤ 16 → p.w 2 = 0 → p.w 3 = 0 →
              let tb : WakeTable := ⟨p.id.ctx, (p.words.drop 3).take (3 + (p.w 4).toNat / 2 ^ 56 % 32), [], []⟩
              d.pwr.state ≠ .listen → d.cas.table = none → d.cas.next = none → tb.ok = true →
              ∃ t, exec .wakeSet s = .next t ∧ s.answered t p 0 [] ∧ t.dev.cas = { d.cas with next := some (some tb) } ∧ t.dev.mem = d.mem))
      ∧ (∀ (pin : BitVec 3) (up : Bool),
          let run := exec (if up then .pdmPinActive pin else .pdmPinInactive pin) s
          (d.earsOn = false → run = .next s)
            ∧ (d.earsOn = true → d.aud.slots ≠ [] → bitOf d.aud.present pin.toNat = false → run = .next s)
            ∧ (d.earsOn = true → d.aud.slots ≠ [] → bitOf d.aud.present pin.toNat = true → ∃ t, run = .next t
                ∧ t = { s with dev := { d with aud := t.dev.aud, ev := t.dev.ev } } ∧ t.dev.aud.slots = d.aud.slots
                ∧ (∀ i : BitVec 3, t.dev.aud.pins.get false i.toNat = (bitOf d.aud.present i.toNat && if i = pin then up else d.aud.pins.get false i.toNat))
                ∧ (up = true → t.dev.aud.link = true)
                ∧ (up = true → d.aud.link = false → (⟨s.now, 6, 0x0052, mkWord [(8, 0), (1, 8)], 0⟩ : Ev) ∈ t.dev.ev.waiting)))
      ∧ (∀ lp hq,
          let run := exec (.audioBlockComplete lp hq) s
          let k := s.now / 10000000 - 1
          ((d.earsOn = false ∨ s.now < 10000000 ∨ k < d.aud.nextBlock → run = .next s)
                  ∧ (∀ x : AudSlot, d.earsOn = true → 10000000 ≤ s.now → k = d.aud.nextBlock → d.aud.waits = [] → d.aud.slots = [x] →
                      AudBlock.writes x.words = false → d.cas.next = none → ∃ t, run = .next t
                      ∧ t = { s with dev := { d with aud := t.dev.aud, cas := t.dev.cas } }
                      ∧ t.dev.aud.nextBlock = k + 1 ∧ t.dev.aud.slots = [x] ∧ t.dev.cas.frameBlock = some k
                      ∧ t.dev.cas.gapFrame = decide (10000000 * k < d.aud.gapUntil) ∧ t.dev.cas.table = d.cas.table
                      ∧ t.dev.aud.ring.rdLe (k % 1024 * 1416) 4 = k % 2 ^ 32
                      ∧ ∀ c < 16, d.aud.pins.get false (c / 2) = false → bitOf d.aud.present (c / 2) = true → d.aud.gapUntil ≤ 10000000 * k →
                          t.dev.aud.ring.getList 0 (k % 1024 * 1416 + 8 + 88 * c) 88 = [0, 0, 0, 2] ++ List.replicate 84 0)))
      ∧ (∀ watch lineLen bits samples,
          let w := b2n watch
          (d.cas.table = none → exec (.motionWatchFrame watch lineLen bits samples) s = .next s)
            ∧ ∀ tb, d.cas.table = some tb →
                (8 ≤ tb.watchPort w ∨ (d.csi (tb.watchPort w)).link = false → exec (.motionWatchFrame watch lineLen bits samples) s = .next s)
                  ∧ (d.earsOn = true → tb.watchPort w < 8 → d.csiPowered (tb.watchPort w) = true → (d.csi (tb.watchPort w)).link = true →
                      ((d.watch w).frames + 1) % tb.decimate ≠ 0 ∨ (d.watch w).height = 0 →
                      exec (.motionWatchFrame watch lineLen bits samples) s = .next { s with dev := { d with cas := { d.cas with
                        watches := d.cas.watches.set Watch.init w { d.watch w with frames := (d.watch w).frames + 1, height := samples.length } } } }))
      ∧ (d.cas.frameBlock = none → exec .tier0FrameDone s = .next s)
      ∧ (∀ k tb r, d.cas.frameBlock = some k → d.cas.table = some tb → d.earsOn = true → tb.image = [] → tb.rules = [r] → d.cas.gapFrame = false →
          d.cas.refractory.get 0 0 = 0 → ruleHold r = 0 → d.pwr.onBattery = false →
          (ruleMet r (d.score tb (ruleScore r)) = false → ∃ t, exec .tier0FrameDone s = .next t
              ∧ t = { s with dev := { d with cas := t.dev.cas } } ∧ t.dev.cas.frameBlock = none ∧ t.dev.cas.holds.get 0 0 = 0)
            ∧ (ruleMet r (d.score tb (ruleScore r)) = true →
                (ruleTier r = 2 → tb.autoRun = false → ∃ t, exec .tier0FrameDone s = .next t
                    ∧ t = { s with dev := { d with cas := t.dev.cas, ev := t.dev.ev } } ∧ t.dev.cas.frameBlock = none
                    ∧ t.dev.cas.refractory.get 0 0 = ruleRefractory r ∧ t.dev.ev.waiting = d.ev.waiting ++ [wakeEv 2 (ruleCause r)])
                  ∧ (ruleTier r = 1 → d.pwr.state = .listen → d.mayRaise = true → d.wakeBusy = false → d.tier1Able tb = true →
                    ∃ t, exec .tier0FrameDone s = .next t ∧ s.sameClock t ∧ wakeEv 1 (ruleCause r) ∈ t.dev.ev.waiting
                      ∧ t.dev.cas.waiting = some (0, ruleCause r, k) ∧ t.dev.cas.raised = true
                      ∧ t.dev.pwr.trans.map (fun x => (x.to_, x.started)) = some (.hush, some s.now))))
      ∧ (d.cas.tier1 = none → exec .tier1Halt s = .next s ∧ exec .tier1LimitExpire s = .next s)
      ∧ (∀ x, d.cas.tier1 = some x →
          (s.now < x.at_ + 1000000 * x.limit → exec .tier1LimitExpire s = .next s)
            ∧ (x.at_ + 1000000 * x.limit ≤ s.now → ∃ t, exec .tier1LimitExpire s = .next t ∧ s.sameClock t ∧ t.dev.cas.tier1 = none
                ∧ t.dev.ev.waiting = d.ev.waiting ++ [wakeEv 1 0xF1] ∧ (∀ c < 4, (t.dev.core c).run = .halted ∨ (t.dev.core c).run = .faulted)
                ∧ ∀ c, 4 ≤ c → t.dev.core c = d.core c)
            ∧ ∀ tb, d.cas.table = some tb →
                (∀ c < 4, (d.core c).part = true → (d.core c).run = .running → exec .tier1Halt s = .next s)
                  ∧ ∀ w v l, (∀ c < 4, (d.core c).part = false ∨ (d.core c).run = .halted) → d.weave? x.weave = some w →
                      (d.core w.control).resultBlock = v :: l →
                      (v.toNat % 4 ≠ 2 → exec .tier1Halt s = .next { s with dev := { d with cas := { d.cas with
                          tier1 := none, linger := if d.cas.raised then some s.now else none } } })
                        ∧ (v.toNat % 4 = 2 → d.pwr.onBattery = false → tb.autoRun = false → ∃ t, exec .tier1Halt s = .next t
                            ∧ t = { s with dev := { d with cas := t.dev.cas, ev := t.dev.ev } } ∧ t.dev.cas.tier1 = none
                            ∧ t.dev.ev.waiting = d.ev.waiting ++ [wakeEv 2 (v.toNat / 2 ^ 8 % 2 ^ 8)]))
      ∧ (d.cas.linger = none ∨ d.cas.raised = false ∨ d.pwr.state ≠ .hush → exec .lingerExpire s = .next s)
      ∧ ∀ t0 tb, d.cas.linger = some t0 → d.cas.table = some tb → d.pwr.onBattery = false →
          (s.now < t0 + 1000000 * tb.linger → exec .lingerExpire s = .next s)
            ∧ (t0 + 1000000 * tb.linger ≤ s.now → d.cas.raised = true → d.pwr.state = .hush → d.mayRaise = true → d.cas.tier1 = none →
                exec .lingerExpire s = .next { s with dev := { d with cas := { d.cas with linger := none }, pwr := { d.pwr with trans := some ⟨.listen, none, s.now, none, false⟩ } } })

/-- HOT_JOIN_REQUEST on a bus that has started, the buses running, ends the back-off and schedules an assignment
within 1 ms. ENTDAA that is scheduled, and I3C_RETRY whose wait has passed, are attempts: with a target the
lowest free address of 0x08 to 0x3D is its own, or the one it had, with HOT_JOIN; with none, and no address
assigned, the bus is alone, the next attempt follows after the back-off, which doubles up to 1,024 ms, and
BUS_ALONE is raised at most once a minute. Otherwise nothing changes. -/
def Obligations.BusResult : Prop :=
  ∀ (s : State) (bus : Half),
    let d := s.dev
    let b := b2n bus
    let x := d.bus b
    let attempt (ts : List (BitVec 48)) (run : Host.Outcome State Fault Refusal) : Prop :=
      (∀ id, ts = [id] → ∀ a ∈ busPool,
          (x.table.get none a = some id.toNat ∧ (∀ k ∈ busPool, x.table.get none k = some id.toNat → a ≤ k))
            ∨ (x.table.get none a = none ∧ (∀ k ∈ busPool, x.table.get none k ≠ some id.toNat ∧ (x.table.get none k = none → a ≤ k))) →
        ∃ t, run = .next t ∧ t = { s with dev := { d with i3c := t.dev.i3c, ev := t.dev.ev } }
          ∧ (t.dev.bus b).table.get none a = some id.toNat ∧ (∀ k, k ≠ a → (t.dev.bus b).table.get none k = x.table.get none k)
          ∧ (t.dev.bus b).alone = false ∧ (t.dev.bus b).nextTry = none ∧ (t.dev.bus b).backoff = 1 ∧ (t.dev.bus b).scheduled = none
          ∧ t.dev.ev.waiting = d.ev.waiting ++ [⟨s.now, 6, 0x0050, mkWord [(b, 0), (a, 8)], BitVec.ofNat 64 id.toNat⟩])
        ∧ (ts = [] → x.table = [] → ∃ t, run = .next t ∧ t = { s with dev := { d with i3c := t.dev.i3c, ev := t.dev.ev } }
            ∧ (t.dev.bus b).alone = true ∧ (t.dev.bus b).nextTry = some (s.now + x.backoff * 1000000)
            ∧ (t.dev.bus b).backoff = min (2 * x.backoff) 1024 ∧ (t.dev.bus b).table = []
            ∧ (x.alone = false → t.dev.ev.waiting = d.ev.waiting ++ [⟨s.now, 6, 0x0051, BitVec.ofNat 64 b, mkWord [(x.backoff, 0)]⟩])
            ∧ (∀ t0, x.alone = true → x.lastAlone = some t0 → s.now < t0 + 60000000000 → t.dev.ev = d.ev))
    (d.busOn = false → exec (.hotJoinRequest bus) s = .next s ∧ ∀ ts, exec (.entdaa bus ts) s = .next s ∧ exec (.i3cRetry bus ts) s = .next s)
      ∧ (x.started = false → exec (.hotJoinRequest bus) s = .next s)
      ∧ (d.busOn = true → x.started = true → exec (.hotJoinRequest bus) s = .next { s with dev := d.setBus b { x with
          nextTry := none, backoff := 1, scheduled := some (x.scheduled.getD (s.now + 1000000)) } })
      ∧ (x.scheduled = none → ∀ ts, exec (.entdaa bus ts) s = .next s)
      ∧ (d.busOn = true → x.scheduled.isSome = true → ∀ ts, attempt ts (exec (.entdaa bus ts) s))
      ∧ (x.nextTry = none → ∀ ts, exec (.i3cRetry bus ts) s = .next s)
      ∧ ∀ t0, x.nextTry = some t0 → ∀ ts,
          (s.now < t0 → exec (.i3cRetry bus ts) s = .next s)
            ∧ (t0 ≤ s.now → d.busOn = true → attempt ts (exec (.i3cRetry bus ts) s))
end

