-- ==== Sys2Proof/Laws/Sparse.lean ====
section
/-! SUPPORT. Sparse maps: a read after a write, and that every operation keeps the canonical form. -/

namespace Sys2Proof.Machine

variable {α : Type}

@[simp] theorem SMap.get_nil (d : α) (k : Nat) : SMap.get d [] k = d := rfl

theorem SMap.above_mono {k j : Nat} (h : j ≤ k) : ∀ {m : SMap α}, m.above k = true → m.above j = true := by
  intro m; simp only [SMap.above, List.all_eq_true, decide_eq_true_eq]
  intro hk e he; have := hk e he; omega

@[simp] theorem SMap.above_nil (k : Nat) : SMap.above k ([] : SMap α) = true := rfl

@[simp] theorem SMap.above_cons (k j : Nat) (v : α) (m : SMap α) :
    SMap.above k ((j, v) :: m) = (decide (k < j) && SMap.above k m) := rfl

/-- A key that no listed key reaches reads as the default. -/
theorem SMap.get_of_above {d : α} {k : Nat} : ∀ {m : SMap α}, m.above k = true → m.get d k = d
  | [], _ => rfl
  | (j, v) :: m, h => by
    simp only [SMap.above_cons, Bool.and_eq_true, decide_eq_true_eq] at h
    have hne : j ≠ k := by omega
    simp only [SMap.get, hne, if_false]
    exact SMap.get_of_above h.2

section
variable [DecidableEq α] {d : α}

@[simp] theorem SMap.wf_nil : SMap.wf d ([] : SMap α) = true := rfl

theorem SMap.wf_cons {k : Nat} {v : α} {m : SMap α} :
    SMap.wf d ((k, v) :: m) = true ↔ v ≠ d ∧ m.above k = true ∧ m.wf d = true := by
  simp [SMap.wf, and_assoc]

omit [DecidableEq α] in
theorem SMap.above_erase {k j : Nat} : ∀ {m : SMap α}, m.above k = true → (m.erase j).above k = true
  | [], _ => rfl
  | (i, v) :: m, h => by
    simp only [SMap.above_cons, Bool.and_eq_true, decide_eq_true_eq] at h
    unfold SMap.erase; split
    · exact SMap.above_erase h.2
    · simp [h.1, SMap.above_erase h.2]

omit [DecidableEq α] in
theorem SMap.above_insert {k j : Nat} {v : α} (hj : k < j) :
    ∀ {m : SMap α}, m.above k = true → (m.insert j v).above k = true
  | [], _ => by simp [SMap.insert, hj]
  | (i, w) :: m, h => by
    simp only [SMap.above_cons, Bool.and_eq_true, decide_eq_true_eq] at h
    unfold SMap.insert; split
    · simp [hj, h.2]
    · split
      · simp [hj, h.1, h.2]
      · simp [h.1, SMap.above_insert hj h.2]

/-- Erasing keeps the canonical form. -/
theorem SMap.wf_erase {k : Nat} : ∀ {m : SMap α}, m.wf d = true → (m.erase k).wf d = true
  | [], _ => rfl
  | (i, v) :: m, h => by
    obtain ⟨hv, ha, hm⟩ := SMap.wf_cons.1 h
    unfold SMap.erase; split
    · exact SMap.wf_erase hm
    · exact SMap.wf_cons.2 ⟨hv, SMap.above_erase ha, SMap.wf_erase hm⟩

/-- Listing a value other than the default keeps the canonical form. -/
theorem SMap.wf_insert {k : Nat} {v : α} (hv : v ≠ d) : ∀ {m : SMap α}, m.wf d = true → (m.insert k v).wf d = true
  | [], _ => by simp [SMap.insert, SMap.wf, hv]
  | (i, w) :: m, h => by
    obtain ⟨hw, ha, hm⟩ := SMap.wf_cons.1 h
    unfold SMap.insert; split
    · next hik => subst hik; exact SMap.wf_cons.2 ⟨hv, ha, hm⟩
    · split
      · next hki =>
        exact SMap.wf_cons.2 ⟨hv, by simp [hki, SMap.above_mono (Nat.le_of_lt hki) ha], h⟩
      · next hne hnl =>
        have hlt : i < k := by omega
        exact SMap.wf_cons.2 ⟨hw, SMap.above_insert hlt ha, SMap.wf_insert hv hm⟩

/-- A write keeps the canonical form. -/
theorem SMap.wf_set {k : Nat} {v : α} {m : SMap α} (h : m.wf d = true) : (m.set d k v).wf d = true := by
  unfold SMap.set; split
  · exact SMap.wf_erase h
  · next hv => exact SMap.wf_insert hv h

theorem SMap.wf_modify {k : Nat} {f : α → α} {m : SMap α} (h : m.wf d = true) : (m.modify d k f).wf d = true :=
  SMap.wf_set h

theorem SMap.wf_setList : ∀ {vs : List α} {m : SMap α} {k : Nat}, m.wf d = true → SMap.wf d (m.setList d k vs) = true
  | [], _, _, h => h
  | v :: vs, m, k, h => by rw [SMap.setList]; exact SMap.wf_setList (SMap.wf_set h)

omit [DecidableEq α] in
theorem SMap.above_filter {k : Nat} {p : Nat × α → Bool} {m : SMap α} (h : m.above k = true) :
    SMap.above k (m.filter p) = true := by
  simp only [SMap.above, List.all_eq_true] at *
  exact fun e he => h e (List.mem_filter.1 he).1

/-- Leaving entries out keeps the canonical form. -/
theorem SMap.wf_filter {p : Nat × α → Bool} : ∀ {m : SMap α}, m.wf d = true → SMap.wf d (m.filter p) = true
  | [], _ => rfl
  | (i, v) :: m, h => by
    obtain ⟨hv, ha, hm⟩ := SMap.wf_cons.1 h
    rw [List.filter_cons]; split
    · exact SMap.wf_cons.2 ⟨hv, SMap.above_filter ha, SMap.wf_filter hm⟩
    · exact SMap.wf_filter hm

theorem SMap.wf_clear {lo hi : Nat} {m : SMap α} (h : m.wf d = true) : SMap.wf d (m.clear lo hi) = true :=
  SMap.wf_filter h

theorem SMap.above_mapV {k : Nat} {f : α → α} {m : SMap α} (h : m.above k = true) :
    SMap.above k (m.mapV d f) = true := by
  simp only [SMap.above, SMap.mapV, List.all_eq_true, List.mem_filterMap] at *
  rintro e ⟨e', he', hf⟩
  split at hf
  · cases hf
  · cases hf; exact h e' he'

/-- Changing every value keeps the canonical form. -/
theorem SMap.wf_mapV {f : α → α} : ∀ {m : SMap α}, m.wf d = true → (m.mapV d f).wf d = true
  | [], _ => rfl
  | (i, v) :: m, h => by
    obtain ⟨_, ha, hm⟩ := SMap.wf_cons.1 h
    unfold SMap.mapV; rw [List.filterMap_cons]; split
    · exact SMap.wf_mapV hm
    · next b hb =>
      split at hb
      · cases hb
      · next hne => cases hb; exact SMap.wf_cons.2 ⟨hne, SMap.above_mapV ha, SMap.wf_mapV hm⟩

/-! ### A read after a write -/

omit [DecidableEq α] in
theorem SMap.get_insert {k j : Nat} {v : α} : ∀ {m : SMap α},
    (m.insert k v).get d j = if j = k then v else m.get d j
  | [] => by by_cases h : k = j <;> simp [SMap.insert, SMap.get, h, eq_comm]
  | (i, w) :: m => by
    unfold SMap.insert; split
    · next hik => subst hik; by_cases h : i = j <;> simp [SMap.get, h, eq_comm (a := j)]
    · split
      · by_cases h : k = j <;> simp [SMap.get, h, eq_comm]
      · next hik _ =>
        by_cases hij : i = j
        · subst hij; simp [SMap.get, hik]
        · simp only [SMap.get, hij, if_false]; exact SMap.get_insert

omit [DecidableEq α] in
theorem SMap.get_erase {k j : Nat} : ∀ {m : SMap α}, (m.erase k).get d j = if j = k then d else m.get d j
  | [] => by simp [SMap.erase]
  | (i, w) :: m => by
    unfold SMap.erase; split
    · next hik =>
      subst hik
      rw [SMap.get_erase]
      by_cases hij : j = i
      · simp [hij]
      · simp [SMap.get, hij, Ne.symm hij]
    · next hik =>
      by_cases hij : i = j
      · subst hij; simp [SMap.get, hik]
      · simp only [SMap.get, hij, if_false]; exact SMap.get_erase

/-- A read after a write: the value written there, elsewhere what was there. -/
theorem SMap.get_set {k j : Nat} {v : α} {m : SMap α} :
    (m.set d k v).get d j = if j = k then v else m.get d j := by
  unfold SMap.set; split
  · next hv => subst hv; exact SMap.get_erase
  · exact SMap.get_insert

@[simp] theorem SMap.get_set_same {k : Nat} {v : α} {m : SMap α} : (m.set d k v).get d k = v := by
  simp [SMap.get_set]

theorem SMap.get_set_other {k j : Nat} {v : α} {m : SMap α} (hj : j ≠ k) : (m.set d k v).get d j = m.get d j := by
  simp [SMap.get_set, hj]

@[simp] theorem SMap.get_modify_same {k : Nat} {f : α → α} {m : SMap α} :
    (m.modify d k f).get d k = f (m.get d k) := SMap.get_set_same

theorem SMap.get_modify_other {k j : Nat} {f : α → α} {m : SMap α} (hj : j ≠ k) :
    (m.modify d k f).get d j = m.get d j := SMap.get_set_other hj

/-- Consecutive writes: inside them the written list, outside them what was there. -/
theorem SMap.get_setList : ∀ {vs : List α} {m : SMap α} {k j : Nat},
    (m.setList d k vs).get d j = if h : k ≤ j ∧ j < k + vs.length then vs[j - k]'(by omega) else m.get d j
  | [], m, k, j => by
    simp [SMap.setList] <;> omega
  | v :: vs, m, k, j => by
    rw [SMap.setList, SMap.get_setList]
    by_cases hjk : j = k
    · subst hjk
      have h1 : ¬(j + 1 ≤ j ∧ j < j + 1 + vs.length) := by omega
      have h2 : j ≤ j ∧ j < j + (v :: vs).length := by simp
      rw [dif_neg h1, dif_pos h2, SMap.get_set_same]
      simp
    · by_cases hin : k + 1 ≤ j ∧ j < k + 1 + vs.length
      · have h2 : k ≤ j ∧ j < k + (v :: vs).length := by simp; omega
        rw [dif_pos hin, dif_pos h2]
        have : j - k = (j - (k + 1)) + 1 := by omega
        simp [this]
      · have h2 : ¬(k ≤ j ∧ j < k + (v :: vs).length) := by simp; omega
        rw [dif_neg hin, dif_neg h2, SMap.get_set_other hjk]

omit [DecidableEq α] in
@[simp] theorem SMap.getList_length {m : SMap α} : ∀ {n k : Nat}, (m.getList d k n).length = n
  | 0, _ => rfl
  | n + 1, k => by simp [SMap.getList, SMap.getList_length]

omit [DecidableEq α] in
theorem SMap.getList_getElem {m : SMap α} : ∀ {n k i : Nat} (h : i < (m.getList d k n).length),
    (m.getList d k n)[i] = m.get d (k + i)
  | 0, _, _, h => by simp at h
  | n + 1, k, 0, _ => rfl
  | n + 1, k, i + 1, h => by
    simp only [SMap.getList, List.getElem_cons_succ]
    rw [SMap.getList_getElem]
    congr 1; omega

/-- What was written reads back whole. -/
theorem SMap.getList_setList {vs : List α} {m : SMap α} {k : Nat} :
    (m.setList d k vs).getList d k vs.length = vs := by
  refine List.ext_getElem (by simp) fun i h1 h2 => ?_
  have hi : k ≤ k + i ∧ k + i < k + vs.length := by omega
  rw [SMap.getList_getElem, SMap.get_setList, dif_pos hi]
  simp

/-- Equal contents are equal data: a canonical map is determined by what it reads. -/
theorem SMap.ext_of_get : ∀ {m n : SMap α}, m.wf d = true → n.wf d = true → (∀ k, m.get d k = n.get d k) → m = n
  | [], [], _, _, _ => rfl
  | [], (j, w) :: n, _, hn, h => by
    obtain ⟨hw, _, _⟩ := SMap.wf_cons.1 hn
    have := h j; simp [SMap.get] at this; exact absurd this.symm hw
  | (i, v) :: m, [], hm, _, h => by
    obtain ⟨hv, _, _⟩ := SMap.wf_cons.1 hm
    have := h i; simp [SMap.get] at this; exact absurd this hv
  | (i, v) :: m, (j, w) :: n, hm, hn, h => by
    obtain ⟨hv, ha, hm'⟩ := SMap.wf_cons.1 hm
    obtain ⟨hw, hb, hn'⟩ := SMap.wf_cons.1 hn
    rcases Nat.lt_trichotomy i j with hij | hij | hij
    · have := h i
      have hne : j ≠ i := by omega
      simp [SMap.get, hne, SMap.get_of_above (SMap.above_mono (Nat.le_of_lt hij) hb)] at this
      exact absurd this hv
    · subst hij
      have hvw : v = w := by have := h i; simpa [SMap.get] using this
      subst hvw
      congr 1
      refine SMap.ext_of_get hm' hn' fun k => ?_
      by_cases hk : i = k
      · subst hk; rw [SMap.get_of_above ha, SMap.get_of_above hb]
      · have := h k; simpa [SMap.get, hk] using this
    · have := h j
      have hne : i ≠ j := by omega
      simp [SMap.get, hne, SMap.get_of_above (SMap.above_mono (Nat.le_of_lt hij) ha)] at this
      exact absurd this.symm hw

end

end Sys2Proof.Machine
end

