-- ==== Sys2Proof/Laws/State.lean ====
section
/-! SUPPORT. The named updates of the device, one lemma for each field: what an update leaves, so that no proof unfolds a
record update. -/

namespace Sys2Proof.Machine

variable (s : State) (d : Device)

/-! ### Acting on the device -/

/-- Whatever a command does to the device, the queue and device time stay. -/
theorem State.act_next {f : Nat → Device → Device} {t : State} (h : s.act f = .next t) :
    t.pending = s.pending ∧ t.now = s.now ∧ t.dev = f s.now s.dev := by
  cases h; exact ⟨rfl, rfl, rfl⟩

/-! ### setCore -/

@[simp] theorem Device.setCore_aon (c : Nat) (k : Core) : (d.setCore c k).aon = d.aon := rfl
@[simp] theorem Device.setCore_port (c : Nat) (k : Core) : (d.setCore c k).port = d.port := rfl
@[simp] theorem Device.setCore_ev (c : Nat) (k : Core) : (d.setCore c k).ev = d.ev := rfl
@[simp] theorem Device.setCore_pace (c : Nat) (k : Core) : (d.setCore c k).pace = d.pace := rfl
@[simp] theorem Device.setCore_therm (c : Nat) (k : Core) : (d.setCore c k).therm = d.therm := rfl
@[simp] theorem Device.setCore_pwr (c : Nat) (k : Core) : (d.setCore c k).pwr = d.pwr := rfl
@[simp] theorem Device.setCore_arb (c : Nat) (k : Core) : (d.setCore c k).arb = d.arb := rfl
@[simp] theorem Device.setCore_parts (c : Nat) (k : Core) : (d.setCore c k).parts = d.parts := rfl
@[simp] theorem Device.setCore_ten (c : Nat) (k : Core) : (d.setCore c k).ten = d.ten := rfl
@[simp] theorem Device.setCore_mem (c : Nat) (k : Core) : (d.setCore c k).mem = d.mem := rfl
@[simp] theorem Device.setCore_dram (c : Nat) (k : Core) : (d.setCore c k).dram = d.dram := rfl
@[simp] theorem Device.setCore_peat (c : Nat) (k : Core) : (d.setCore c k).peat = d.peat := rfl
@[simp] theorem Device.setCore_cam (c : Nat) (k : Core) : (d.setCore c k).cam = d.cam := rfl
@[simp] theorem Device.setCore_aud (c : Nat) (k : Core) : (d.setCore c k).aud = d.aud := rfl
@[simp] theorem Device.setCore_cas (c : Nat) (k : Core) : (d.setCore c k).cas = d.cas := rfl
@[simp] theorem Device.setCore_hub (c : Nat) (k : Core) : (d.setCore c k).hub = d.hub := rfl
@[simp] theorem Device.setCore_sec (c : Nat) (k : Core) : (d.setCore c k).sec = d.sec := rfl
@[simp] theorem Device.setCore_i3c (c : Nat) (k : Core) : (d.setCore c k).i3c = d.i3c := rfl
@[simp] theorem Device.setCore_freeCount (c : Nat) (k : Core) : (d.setCore c k).freeCount = d.freeCount := rfl

/-! ### modCore -/

@[simp] theorem Device.modCore_aon (c : Nat) (f : Core → Core) : (d.modCore c f).aon = d.aon := rfl
@[simp] theorem Device.modCore_port (c : Nat) (f : Core → Core) : (d.modCore c f).port = d.port := rfl
@[simp] theorem Device.modCore_ev (c : Nat) (f : Core → Core) : (d.modCore c f).ev = d.ev := rfl
@[simp] theorem Device.modCore_pace (c : Nat) (f : Core → Core) : (d.modCore c f).pace = d.pace := rfl
@[simp] theorem Device.modCore_therm (c : Nat) (f : Core → Core) : (d.modCore c f).therm = d.therm := rfl
@[simp] theorem Device.modCore_pwr (c : Nat) (f : Core → Core) : (d.modCore c f).pwr = d.pwr := rfl
@[simp] theorem Device.modCore_arb (c : Nat) (f : Core → Core) : (d.modCore c f).arb = d.arb := rfl
@[simp] theorem Device.modCore_parts (c : Nat) (f : Core → Core) : (d.modCore c f).parts = d.parts := rfl
@[simp] theorem Device.modCore_ten (c : Nat) (f : Core → Core) : (d.modCore c f).ten = d.ten := rfl
@[simp] theorem Device.modCore_mem (c : Nat) (f : Core → Core) : (d.modCore c f).mem = d.mem := rfl
@[simp] theorem Device.modCore_dram (c : Nat) (f : Core → Core) : (d.modCore c f).dram = d.dram := rfl
@[simp] theorem Device.modCore_peat (c : Nat) (f : Core → Core) : (d.modCore c f).peat = d.peat := rfl
@[simp] theorem Device.modCore_cam (c : Nat) (f : Core → Core) : (d.modCore c f).cam = d.cam := rfl
@[simp] theorem Device.modCore_aud (c : Nat) (f : Core → Core) : (d.modCore c f).aud = d.aud := rfl
@[simp] theorem Device.modCore_cas (c : Nat) (f : Core → Core) : (d.modCore c f).cas = d.cas := rfl
@[simp] theorem Device.modCore_hub (c : Nat) (f : Core → Core) : (d.modCore c f).hub = d.hub := rfl
@[simp] theorem Device.modCore_sec (c : Nat) (f : Core → Core) : (d.modCore c f).sec = d.sec := rfl
@[simp] theorem Device.modCore_i3c (c : Nat) (f : Core → Core) : (d.modCore c f).i3c = d.i3c := rfl
@[simp] theorem Device.modCore_freeCount (c : Nat) (f : Core → Core) : (d.modCore c f).freeCount = d.freeCount := rfl

/-! ### setPart -/

@[simp] theorem Device.setPart_aon (p : Nat) (q : Part) : (d.setPart p q).aon = d.aon := rfl
@[simp] theorem Device.setPart_port (p : Nat) (q : Part) : (d.setPart p q).port = d.port := rfl
@[simp] theorem Device.setPart_ev (p : Nat) (q : Part) : (d.setPart p q).ev = d.ev := rfl
@[simp] theorem Device.setPart_pace (p : Nat) (q : Part) : (d.setPart p q).pace = d.pace := rfl
@[simp] theorem Device.setPart_therm (p : Nat) (q : Part) : (d.setPart p q).therm = d.therm := rfl
@[simp] theorem Device.setPart_pwr (p : Nat) (q : Part) : (d.setPart p q).pwr = d.pwr := rfl
@[simp] theorem Device.setPart_fab (p : Nat) (q : Part) : (d.setPart p q).fab = d.fab := rfl
@[simp] theorem Device.setPart_arb (p : Nat) (q : Part) : (d.setPart p q).arb = d.arb := rfl
@[simp] theorem Device.setPart_ten (p : Nat) (q : Part) : (d.setPart p q).ten = d.ten := rfl
@[simp] theorem Device.setPart_mem (p : Nat) (q : Part) : (d.setPart p q).mem = d.mem := rfl
@[simp] theorem Device.setPart_dram (p : Nat) (q : Part) : (d.setPart p q).dram = d.dram := rfl
@[simp] theorem Device.setPart_peat (p : Nat) (q : Part) : (d.setPart p q).peat = d.peat := rfl
@[simp] theorem Device.setPart_cam (p : Nat) (q : Part) : (d.setPart p q).cam = d.cam := rfl
@[simp] theorem Device.setPart_aud (p : Nat) (q : Part) : (d.setPart p q).aud = d.aud := rfl
@[simp] theorem Device.setPart_cas (p : Nat) (q : Part) : (d.setPart p q).cas = d.cas := rfl
@[simp] theorem Device.setPart_hub (p : Nat) (q : Part) : (d.setPart p q).hub = d.hub := rfl
@[simp] theorem Device.setPart_sec (p : Nat) (q : Part) : (d.setPart p q).sec = d.sec := rfl
@[simp] theorem Device.setPart_i3c (p : Nat) (q : Part) : (d.setPart p q).i3c = d.i3c := rfl
@[simp] theorem Device.setPart_freeCount (p : Nat) (q : Part) : (d.setPart p q).freeCount = d.freeCount := rfl

/-! ### modPart -/

@[simp] theorem Device.modPart_aon (p : Nat) (f : Part → Part) : (d.modPart p f).aon = d.aon := rfl
@[simp] theorem Device.modPart_port (p : Nat) (f : Part → Part) : (d.modPart p f).port = d.port := rfl
@[simp] theorem Device.modPart_ev (p : Nat) (f : Part → Part) : (d.modPart p f).ev = d.ev := rfl
@[simp] theorem Device.modPart_pace (p : Nat) (f : Part → Part) : (d.modPart p f).pace = d.pace := rfl
@[simp] theorem Device.modPart_therm (p : Nat) (f : Part → Part) : (d.modPart p f).therm = d.therm := rfl
@[simp] theorem Device.modPart_pwr (p : Nat) (f : Part → Part) : (d.modPart p f).pwr = d.pwr := rfl
@[simp] theorem Device.modPart_fab (p : Nat) (f : Part → Part) : (d.modPart p f).fab = d.fab := rfl
@[simp] theorem Device.modPart_arb (p : Nat) (f : Part → Part) : (d.modPart p f).arb = d.arb := rfl
@[simp] theorem Device.modPart_ten (p : Nat) (f : Part → Part) : (d.modPart p f).ten = d.ten := rfl
@[simp] theorem Device.modPart_mem (p : Nat) (f : Part → Part) : (d.modPart p f).mem = d.mem := rfl
@[simp] theorem Device.modPart_dram (p : Nat) (f : Part → Part) : (d.modPart p f).dram = d.dram := rfl
@[simp] theorem Device.modPart_peat (p : Nat) (f : Part → Part) : (d.modPart p f).peat = d.peat := rfl
@[simp] theorem Device.modPart_cam (p : Nat) (f : Part → Part) : (d.modPart p f).cam = d.cam := rfl
@[simp] theorem Device.modPart_aud (p : Nat) (f : Part → Part) : (d.modPart p f).aud = d.aud := rfl
@[simp] theorem Device.modPart_cas (p : Nat) (f : Part → Part) : (d.modPart p f).cas = d.cas := rfl
@[simp] theorem Device.modPart_hub (p : Nat) (f : Part → Part) : (d.modPart p f).hub = d.hub := rfl
@[simp] theorem Device.modPart_sec (p : Nat) (f : Part → Part) : (d.modPart p f).sec = d.sec := rfl
@[simp] theorem Device.modPart_i3c (p : Nat) (f : Part → Part) : (d.modPart p f).i3c = d.i3c := rfl
@[simp] theorem Device.modPart_freeCount (p : Nat) (f : Part → Part) : (d.modPart p f).freeCount = d.freeCount := rfl

/-! ### modDom -/

@[simp] theorem Device.modDom_aon (i : Nat) (f : DomSt → DomSt) : (d.modDom i f).aon = d.aon := rfl
@[simp] theorem Device.modDom_port (i : Nat) (f : DomSt → DomSt) : (d.modDom i f).port = d.port := rfl
@[simp] theorem Device.modDom_ev (i : Nat) (f : DomSt → DomSt) : (d.modDom i f).ev = d.ev := rfl
@[simp] theorem Device.modDom_therm (i : Nat) (f : DomSt → DomSt) : (d.modDom i f).therm = d.therm := rfl
@[simp] theorem Device.modDom_pwr (i : Nat) (f : DomSt → DomSt) : (d.modDom i f).pwr = d.pwr := rfl
@[simp] theorem Device.modDom_fab (i : Nat) (f : DomSt → DomSt) : (d.modDom i f).fab = d.fab := rfl
@[simp] theorem Device.modDom_arb (i : Nat) (f : DomSt → DomSt) : (d.modDom i f).arb = d.arb := rfl
@[simp] theorem Device.modDom_parts (i : Nat) (f : DomSt → DomSt) : (d.modDom i f).parts = d.parts := rfl
@[simp] theorem Device.modDom_ten (i : Nat) (f : DomSt → DomSt) : (d.modDom i f).ten = d.ten := rfl
@[simp] theorem Device.modDom_mem (i : Nat) (f : DomSt → DomSt) : (d.modDom i f).mem = d.mem := rfl
@[simp] theorem Device.modDom_dram (i : Nat) (f : DomSt → DomSt) : (d.modDom i f).dram = d.dram := rfl
@[simp] theorem Device.modDom_peat (i : Nat) (f : DomSt → DomSt) : (d.modDom i f).peat = d.peat := rfl
@[simp] theorem Device.modDom_cam (i : Nat) (f : DomSt → DomSt) : (d.modDom i f).cam = d.cam := rfl
@[simp] theorem Device.modDom_aud (i : Nat) (f : DomSt → DomSt) : (d.modDom i f).aud = d.aud := rfl
@[simp] theorem Device.modDom_cas (i : Nat) (f : DomSt → DomSt) : (d.modDom i f).cas = d.cas := rfl
@[simp] theorem Device.modDom_hub (i : Nat) (f : DomSt → DomSt) : (d.modDom i f).hub = d.hub := rfl
@[simp] theorem Device.modDom_sec (i : Nat) (f : DomSt → DomSt) : (d.modDom i f).sec = d.sec := rfl
@[simp] theorem Device.modDom_i3c (i : Nat) (f : DomSt → DomSt) : (d.modDom i f).i3c = d.i3c := rfl
@[simp] theorem Device.modDom_freeCount (i : Nat) (f : DomSt → DomSt) : (d.modDom i f).freeCount = d.freeCount := rfl

/-! ### modRail -/

@[simp] theorem Device.modRail_aon (r : Nat) (f : RailSt → RailSt) : (d.modRail r f).aon = d.aon := rfl
@[simp] theorem Device.modRail_port (r : Nat) (f : RailSt → RailSt) : (d.modRail r f).port = d.port := rfl
@[simp] theorem Device.modRail_ev (r : Nat) (f : RailSt → RailSt) : (d.modRail r f).ev = d.ev := rfl
@[simp] theorem Device.modRail_therm (r : Nat) (f : RailSt → RailSt) : (d.modRail r f).therm = d.therm := rfl
@[simp] theorem Device.modRail_pwr (r : Nat) (f : RailSt → RailSt) : (d.modRail r f).pwr = d.pwr := rfl
@[simp] theorem Device.modRail_fab (r : Nat) (f : RailSt → RailSt) : (d.modRail r f).fab = d.fab := rfl
@[simp] theorem Device.modRail_arb (r : Nat) (f : RailSt → RailSt) : (d.modRail r f).arb = d.arb := rfl
@[simp] theorem Device.modRail_parts (r : Nat) (f : RailSt → RailSt) : (d.modRail r f).parts = d.parts := rfl
@[simp] theorem Device.modRail_ten (r : Nat) (f : RailSt → RailSt) : (d.modRail r f).ten = d.ten := rfl
@[simp] theorem Device.modRail_mem (r : Nat) (f : RailSt → RailSt) : (d.modRail r f).mem = d.mem := rfl
@[simp] theorem Device.modRail_dram (r : Nat) (f : RailSt → RailSt) : (d.modRail r f).dram = d.dram := rfl
@[simp] theorem Device.modRail_peat (r : Nat) (f : RailSt → RailSt) : (d.modRail r f).peat = d.peat := rfl
@[simp] theorem Device.modRail_cam (r : Nat) (f : RailSt → RailSt) : (d.modRail r f).cam = d.cam := rfl
@[simp] theorem Device.modRail_aud (r : Nat) (f : RailSt → RailSt) : (d.modRail r f).aud = d.aud := rfl
@[simp] theorem Device.modRail_cas (r : Nat) (f : RailSt → RailSt) : (d.modRail r f).cas = d.cas := rfl
@[simp] theorem Device.modRail_hub (r : Nat) (f : RailSt → RailSt) : (d.modRail r f).hub = d.hub := rfl
@[simp] theorem Device.modRail_sec (r : Nat) (f : RailSt → RailSt) : (d.modRail r f).sec = d.sec := rfl
@[simp] theorem Device.modRail_i3c (r : Nat) (f : RailSt → RailSt) : (d.modRail r f).i3c = d.i3c := rfl
@[simp] theorem Device.modRail_freeCount (r : Nat) (f : RailSt → RailSt) : (d.modRail r f).freeCount = d.freeCount := rfl

/-! ### setLknot -/

@[simp] theorem Device.setLknot_aon (c i : Nat) (x : Knot) : (d.setLknot c i x).aon = d.aon := rfl
@[simp] theorem Device.setLknot_port (c i : Nat) (x : Knot) : (d.setLknot c i x).port = d.port := rfl
@[simp] theorem Device.setLknot_ev (c i : Nat) (x : Knot) : (d.setLknot c i x).ev = d.ev := rfl
@[simp] theorem Device.setLknot_pace (c i : Nat) (x : Knot) : (d.setLknot c i x).pace = d.pace := rfl
@[simp] theorem Device.setLknot_therm (c i : Nat) (x : Knot) : (d.setLknot c i x).therm = d.therm := rfl
@[simp] theorem Device.setLknot_pwr (c i : Nat) (x : Knot) : (d.setLknot c i x).pwr = d.pwr := rfl
@[simp] theorem Device.setLknot_arb (c i : Nat) (x : Knot) : (d.setLknot c i x).arb = d.arb := rfl
@[simp] theorem Device.setLknot_parts (c i : Nat) (x : Knot) : (d.setLknot c i x).parts = d.parts := rfl
@[simp] theorem Device.setLknot_ten (c i : Nat) (x : Knot) : (d.setLknot c i x).ten = d.ten := rfl
@[simp] theorem Device.setLknot_mem (c i : Nat) (x : Knot) : (d.setLknot c i x).mem = d.mem := rfl
@[simp] theorem Device.setLknot_dram (c i : Nat) (x : Knot) : (d.setLknot c i x).dram = d.dram := rfl
@[simp] theorem Device.setLknot_peat (c i : Nat) (x : Knot) : (d.setLknot c i x).peat = d.peat := rfl
@[simp] theorem Device.setLknot_cam (c i : Nat) (x : Knot) : (d.setLknot c i x).cam = d.cam := rfl
@[simp] theorem Device.setLknot_aud (c i : Nat) (x : Knot) : (d.setLknot c i x).aud = d.aud := rfl
@[simp] theorem Device.setLknot_cas (c i : Nat) (x : Knot) : (d.setLknot c i x).cas = d.cas := rfl
@[simp] theorem Device.setLknot_hub (c i : Nat) (x : Knot) : (d.setLknot c i x).hub = d.hub := rfl
@[simp] theorem Device.setLknot_sec (c i : Nat) (x : Knot) : (d.setLknot c i x).sec = d.sec := rfl
@[simp] theorem Device.setLknot_i3c (c i : Nat) (x : Knot) : (d.setLknot c i x).i3c = d.i3c := rfl
@[simp] theorem Device.setLknot_freeCount (c i : Nat) (x : Knot) : (d.setLknot c i x).freeCount = d.freeCount := rfl

/-! ### setGknot -/

@[simp] theorem Device.setGknot_aon (i : Nat) (x : GKnot) : (d.setGknot i x).aon = d.aon := rfl
@[simp] theorem Device.setGknot_port (i : Nat) (x : GKnot) : (d.setGknot i x).port = d.port := rfl
@[simp] theorem Device.setGknot_ev (i : Nat) (x : GKnot) : (d.setGknot i x).ev = d.ev := rfl
@[simp] theorem Device.setGknot_pace (i : Nat) (x : GKnot) : (d.setGknot i x).pace = d.pace := rfl
@[simp] theorem Device.setGknot_therm (i : Nat) (x : GKnot) : (d.setGknot i x).therm = d.therm := rfl
@[simp] theorem Device.setGknot_pwr (i : Nat) (x : GKnot) : (d.setGknot i x).pwr = d.pwr := rfl
@[simp] theorem Device.setGknot_arb (i : Nat) (x : GKnot) : (d.setGknot i x).arb = d.arb := rfl
@[simp] theorem Device.setGknot_parts (i : Nat) (x : GKnot) : (d.setGknot i x).parts = d.parts := rfl
@[simp] theorem Device.setGknot_ten (i : Nat) (x : GKnot) : (d.setGknot i x).ten = d.ten := rfl
@[simp] theorem Device.setGknot_mem (i : Nat) (x : GKnot) : (d.setGknot i x).mem = d.mem := rfl
@[simp] theorem Device.setGknot_dram (i : Nat) (x : GKnot) : (d.setGknot i x).dram = d.dram := rfl
@[simp] theorem Device.setGknot_peat (i : Nat) (x : GKnot) : (d.setGknot i x).peat = d.peat := rfl
@[simp] theorem Device.setGknot_cam (i : Nat) (x : GKnot) : (d.setGknot i x).cam = d.cam := rfl
@[simp] theorem Device.setGknot_aud (i : Nat) (x : GKnot) : (d.setGknot i x).aud = d.aud := rfl
@[simp] theorem Device.setGknot_cas (i : Nat) (x : GKnot) : (d.setGknot i x).cas = d.cas := rfl
@[simp] theorem Device.setGknot_hub (i : Nat) (x : GKnot) : (d.setGknot i x).hub = d.hub := rfl
@[simp] theorem Device.setGknot_sec (i : Nat) (x : GKnot) : (d.setGknot i x).sec = d.sec := rfl
@[simp] theorem Device.setGknot_i3c (i : Nat) (x : GKnot) : (d.setGknot i x).i3c = d.i3c := rfl
@[simp] theorem Device.setGknot_freeCount (i : Nat) (x : GKnot) : (d.setGknot i x).freeCount = d.freeCount := rfl

/-! ### setAlloc -/

@[simp] theorem Device.setAlloc_aon (i : Nat) (a : Option Alloc) : (d.setAlloc i a).aon = d.aon := rfl
@[simp] theorem Device.setAlloc_port (i : Nat) (a : Option Alloc) : (d.setAlloc i a).port = d.port := rfl
@[simp] theorem Device.setAlloc_ev (i : Nat) (a : Option Alloc) : (d.setAlloc i a).ev = d.ev := rfl
@[simp] theorem Device.setAlloc_pace (i : Nat) (a : Option Alloc) : (d.setAlloc i a).pace = d.pace := rfl
@[simp] theorem Device.setAlloc_therm (i : Nat) (a : Option Alloc) : (d.setAlloc i a).therm = d.therm := rfl
@[simp] theorem Device.setAlloc_pwr (i : Nat) (a : Option Alloc) : (d.setAlloc i a).pwr = d.pwr := rfl
@[simp] theorem Device.setAlloc_fab (i : Nat) (a : Option Alloc) : (d.setAlloc i a).fab = d.fab := rfl
@[simp] theorem Device.setAlloc_arb (i : Nat) (a : Option Alloc) : (d.setAlloc i a).arb = d.arb := rfl
@[simp] theorem Device.setAlloc_parts (i : Nat) (a : Option Alloc) : (d.setAlloc i a).parts = d.parts := rfl
@[simp] theorem Device.setAlloc_mem (i : Nat) (a : Option Alloc) : (d.setAlloc i a).mem = d.mem := rfl
@[simp] theorem Device.setAlloc_dram (i : Nat) (a : Option Alloc) : (d.setAlloc i a).dram = d.dram := rfl
@[simp] theorem Device.setAlloc_peat (i : Nat) (a : Option Alloc) : (d.setAlloc i a).peat = d.peat := rfl
@[simp] theorem Device.setAlloc_cam (i : Nat) (a : Option Alloc) : (d.setAlloc i a).cam = d.cam := rfl
@[simp] theorem Device.setAlloc_aud (i : Nat) (a : Option Alloc) : (d.setAlloc i a).aud = d.aud := rfl
@[simp] theorem Device.setAlloc_cas (i : Nat) (a : Option Alloc) : (d.setAlloc i a).cas = d.cas := rfl
@[simp] theorem Device.setAlloc_hub (i : Nat) (a : Option Alloc) : (d.setAlloc i a).hub = d.hub := rfl
@[simp] theorem Device.setAlloc_sec (i : Nat) (a : Option Alloc) : (d.setAlloc i a).sec = d.sec := rfl
@[simp] theorem Device.setAlloc_i3c (i : Nat) (a : Option Alloc) : (d.setAlloc i a).i3c = d.i3c := rfl
@[simp] theorem Device.setAlloc_freeCount (i : Nat) (a : Option Alloc) : (d.setAlloc i a).freeCount = d.freeCount := rfl

/-! ### modAlloc -/

@[simp] theorem Device.modAlloc_aon (i : Nat) (f : Alloc → Alloc) : (d.modAlloc i f).aon = d.aon := rfl
@[simp] theorem Device.modAlloc_port (i : Nat) (f : Alloc → Alloc) : (d.modAlloc i f).port = d.port := rfl
@[simp] theorem Device.modAlloc_ev (i : Nat) (f : Alloc → Alloc) : (d.modAlloc i f).ev = d.ev := rfl
@[simp] theorem Device.modAlloc_pace (i : Nat) (f : Alloc → Alloc) : (d.modAlloc i f).pace = d.pace := rfl
@[simp] theorem Device.modAlloc_therm (i : Nat) (f : Alloc → Alloc) : (d.modAlloc i f).therm = d.therm := rfl
@[simp] theorem Device.modAlloc_pwr (i : Nat) (f : Alloc → Alloc) : (d.modAlloc i f).pwr = d.pwr := rfl
@[simp] theorem Device.modAlloc_fab (i : Nat) (f : Alloc → Alloc) : (d.modAlloc i f).fab = d.fab := rfl
@[simp] theorem Device.modAlloc_arb (i : Nat) (f : Alloc → Alloc) : (d.modAlloc i f).arb = d.arb := rfl
@[simp] theorem Device.modAlloc_parts (i : Nat) (f : Alloc → Alloc) : (d.modAlloc i f).parts = d.parts := rfl
@[simp] theorem Device.modAlloc_mem (i : Nat) (f : Alloc → Alloc) : (d.modAlloc i f).mem = d.mem := rfl
@[simp] theorem Device.modAlloc_dram (i : Nat) (f : Alloc → Alloc) : (d.modAlloc i f).dram = d.dram := rfl
@[simp] theorem Device.modAlloc_peat (i : Nat) (f : Alloc → Alloc) : (d.modAlloc i f).peat = d.peat := rfl
@[simp] theorem Device.modAlloc_cam (i : Nat) (f : Alloc → Alloc) : (d.modAlloc i f).cam = d.cam := rfl
@[simp] theorem Device.modAlloc_aud (i : Nat) (f : Alloc → Alloc) : (d.modAlloc i f).aud = d.aud := rfl
@[simp] theorem Device.modAlloc_cas (i : Nat) (f : Alloc → Alloc) : (d.modAlloc i f).cas = d.cas := rfl
@[simp] theorem Device.modAlloc_hub (i : Nat) (f : Alloc → Alloc) : (d.modAlloc i f).hub = d.hub := rfl
@[simp] theorem Device.modAlloc_sec (i : Nat) (f : Alloc → Alloc) : (d.modAlloc i f).sec = d.sec := rfl
@[simp] theorem Device.modAlloc_i3c (i : Nat) (f : Alloc → Alloc) : (d.modAlloc i f).i3c = d.i3c := rfl
@[simp] theorem Device.modAlloc_freeCount (i : Nat) (f : Alloc → Alloc) : (d.modAlloc i f).freeCount = d.freeCount := rfl

/-! ### modWeave -/

@[simp] theorem Device.modWeave_aon (i : Nat) (f : Weave → Weave) : (d.modWeave i f).aon = d.aon := rfl
@[simp] theorem Device.modWeave_port (i : Nat) (f : Weave → Weave) : (d.modWeave i f).port = d.port := rfl
@[simp] theorem Device.modWeave_ev (i : Nat) (f : Weave → Weave) : (d.modWeave i f).ev = d.ev := rfl
@[simp] theorem Device.modWeave_pace (i : Nat) (f : Weave → Weave) : (d.modWeave i f).pace = d.pace := rfl
@[simp] theorem Device.modWeave_therm (i : Nat) (f : Weave → Weave) : (d.modWeave i f).therm = d.therm := rfl
@[simp] theorem Device.modWeave_pwr (i : Nat) (f : Weave → Weave) : (d.modWeave i f).pwr = d.pwr := rfl
@[simp] theorem Device.modWeave_fab (i : Nat) (f : Weave → Weave) : (d.modWeave i f).fab = d.fab := rfl
@[simp] theorem Device.modWeave_arb (i : Nat) (f : Weave → Weave) : (d.modWeave i f).arb = d.arb := rfl
@[simp] theorem Device.modWeave_parts (i : Nat) (f : Weave → Weave) : (d.modWeave i f).parts = d.parts := rfl
@[simp] theorem Device.modWeave_mem (i : Nat) (f : Weave → Weave) : (d.modWeave i f).mem = d.mem := rfl
@[simp] theorem Device.modWeave_dram (i : Nat) (f : Weave → Weave) : (d.modWeave i f).dram = d.dram := rfl
@[simp] theorem Device.modWeave_peat (i : Nat) (f : Weave → Weave) : (d.modWeave i f).peat = d.peat := rfl
@[simp] theorem Device.modWeave_cam (i : Nat) (f : Weave → Weave) : (d.modWeave i f).cam = d.cam := rfl
@[simp] theorem Device.modWeave_aud (i : Nat) (f : Weave → Weave) : (d.modWeave i f).aud = d.aud := rfl
@[simp] theorem Device.modWeave_cas (i : Nat) (f : Weave → Weave) : (d.modWeave i f).cas = d.cas := rfl
@[simp] theorem Device.modWeave_hub (i : Nat) (f : Weave → Weave) : (d.modWeave i f).hub = d.hub := rfl
@[simp] theorem Device.modWeave_sec (i : Nat) (f : Weave → Weave) : (d.modWeave i f).sec = d.sec := rfl
@[simp] theorem Device.modWeave_i3c (i : Nat) (f : Weave → Weave) : (d.modWeave i f).i3c = d.i3c := rfl
@[simp] theorem Device.modWeave_freeCount (i : Nat) (f : Weave → Weave) : (d.modWeave i f).freeCount = d.freeCount := rfl

/-! ### logFault -/

@[simp] theorem Device.logFault_port (now code : Nat) (p c : Option Nat) (a b : Nat) : (d.logFault now code p c a b).port = d.port := by simp only [Device.logFault]
@[simp] theorem Device.logFault_ev (now code : Nat) (p c : Option Nat) (a b : Nat) : (d.logFault now code p c a b).ev = d.ev := by simp only [Device.logFault]
@[simp] theorem Device.logFault_pace (now code : Nat) (p c : Option Nat) (a b : Nat) : (d.logFault now code p c a b).pace = d.pace := by simp only [Device.logFault]
@[simp] theorem Device.logFault_therm (now code : Nat) (p c : Option Nat) (a b : Nat) : (d.logFault now code p c a b).therm = d.therm := by simp only [Device.logFault]
@[simp] theorem Device.logFault_pwr (now code : Nat) (p c : Option Nat) (a b : Nat) : (d.logFault now code p c a b).pwr = d.pwr := by simp only [Device.logFault]
@[simp] theorem Device.logFault_fab (now code : Nat) (p c : Option Nat) (a b : Nat) : (d.logFault now code p c a b).fab = d.fab := by simp only [Device.logFault]
@[simp] theorem Device.logFault_arb (now code : Nat) (p c : Option Nat) (a b : Nat) : (d.logFault now code p c a b).arb = d.arb := by simp only [Device.logFault]
@[simp] theorem Device.logFault_parts (now code : Nat) (p c : Option Nat) (a b : Nat) : (d.logFault now code p c a b).parts = d.parts := by simp only [Device.logFault]
@[simp] theorem Device.logFault_ten (now code : Nat) (p c : Option Nat) (a b : Nat) : (d.logFault now code p c a b).ten = d.ten := by simp only [Device.logFault]
@[simp] theorem Device.logFault_mem (now code : Nat) (p c : Option Nat) (a b : Nat) : (d.logFault now code p c a b).mem = d.mem := by simp only [Device.logFault]
@[simp] theorem Device.logFault_dram (now code : Nat) (p c : Option Nat) (a b : Nat) : (d.logFault now code p c a b).dram = d.dram := by simp only [Device.logFault]
@[simp] theorem Device.logFault_peat (now code : Nat) (p c : Option Nat) (a b : Nat) : (d.logFault now code p c a b).peat = d.peat := by simp only [Device.logFault]
@[simp] theorem Device.logFault_cam (now code : Nat) (p c : Option Nat) (a b : Nat) : (d.logFault now code p c a b).cam = d.cam := by simp only [Device.logFault]
@[simp] theorem Device.logFault_aud (now code : Nat) (p c : Option Nat) (a b : Nat) : (d.logFault now code p c a b).aud = d.aud := by simp only [Device.logFault]
@[simp] theorem Device.logFault_cas (now code : Nat) (p c : Option Nat) (a b : Nat) : (d.logFault now code p c a b).cas = d.cas := by simp only [Device.logFault]
@[simp] theorem Device.logFault_hub (now code : Nat) (p c : Option Nat) (a b : Nat) : (d.logFault now code p c a b).hub = d.hub := by simp only [Device.logFault]
@[simp] theorem Device.logFault_sec (now code : Nat) (p c : Option Nat) (a b : Nat) : (d.logFault now code p c a b).sec = d.sec := by simp only [Device.logFault]
@[simp] theorem Device.logFault_i3c (now code : Nat) (p c : Option Nat) (a b : Nat) : (d.logFault now code p c a b).i3c = d.i3c := by simp only [Device.logFault]
@[simp] theorem Device.logFault_freeCount (now code : Nat) (p c : Option Nat) (a b : Nat) : (d.logFault now code p c a b).freeCount = d.freeCount := by simp only [Device.logFault]

/-! ### raise -/

@[simp] theorem Device.raise_aon (now source code : Nat) (w2 w3 : Word) : (d.raise now source code w2 w3).aon = d.aon := rfl
@[simp] theorem Device.raise_port (now source code : Nat) (w2 w3 : Word) : (d.raise now source code w2 w3).port = d.port := rfl
@[simp] theorem Device.raise_pace (now source code : Nat) (w2 w3 : Word) : (d.raise now source code w2 w3).pace = d.pace := rfl
@[simp] theorem Device.raise_therm (now source code : Nat) (w2 w3 : Word) : (d.raise now source code w2 w3).therm = d.therm := rfl
@[simp] theorem Device.raise_pwr (now source code : Nat) (w2 w3 : Word) : (d.raise now source code w2 w3).pwr = d.pwr := rfl
@[simp] theorem Device.raise_fab (now source code : Nat) (w2 w3 : Word) : (d.raise now source code w2 w3).fab = d.fab := rfl
@[simp] theorem Device.raise_arb (now source code : Nat) (w2 w3 : Word) : (d.raise now source code w2 w3).arb = d.arb := rfl
@[simp] theorem Device.raise_parts (now source code : Nat) (w2 w3 : Word) : (d.raise now source code w2 w3).parts = d.parts := rfl
@[simp] theorem Device.raise_ten (now source code : Nat) (w2 w3 : Word) : (d.raise now source code w2 w3).ten = d.ten := rfl
@[simp] theorem Device.raise_mem (now source code : Nat) (w2 w3 : Word) : (d.raise now source code w2 w3).mem = d.mem := rfl
@[simp] theorem Device.raise_dram (now source code : Nat) (w2 w3 : Word) : (d.raise now source code w2 w3).dram = d.dram := rfl
@[simp] theorem Device.raise_peat (now source code : Nat) (w2 w3 : Word) : (d.raise now source code w2 w3).peat = d.peat := rfl
@[simp] theorem Device.raise_cam (now source code : Nat) (w2 w3 : Word) : (d.raise now source code w2 w3).cam = d.cam := rfl
@[simp] theorem Device.raise_aud (now source code : Nat) (w2 w3 : Word) : (d.raise now source code w2 w3).aud = d.aud := rfl
@[simp] theorem Device.raise_cas (now source code : Nat) (w2 w3 : Word) : (d.raise now source code w2 w3).cas = d.cas := rfl
@[simp] theorem Device.raise_hub (now source code : Nat) (w2 w3 : Word) : (d.raise now source code w2 w3).hub = d.hub := rfl
@[simp] theorem Device.raise_sec (now source code : Nat) (w2 w3 : Word) : (d.raise now source code w2 w3).sec = d.sec := rfl
@[simp] theorem Device.raise_i3c (now source code : Nat) (w2 w3 : Word) : (d.raise now source code w2 w3).i3c = d.i3c := rfl
@[simp] theorem Device.raise_freeCount (now source code : Nat) (w2 w3 : Word) : (d.raise now source code w2 w3).freeCount = d.freeCount := rfl

/-! ### tookFree -/

@[simp] theorem Device.tookFree_aon : (d.tookFree).aon = d.aon := rfl
@[simp] theorem Device.tookFree_port : (d.tookFree).port = d.port := rfl
@[simp] theorem Device.tookFree_ev : (d.tookFree).ev = d.ev := rfl
@[simp] theorem Device.tookFree_pace : (d.tookFree).pace = d.pace := rfl
@[simp] theorem Device.tookFree_therm : (d.tookFree).therm = d.therm := rfl
@[simp] theorem Device.tookFree_pwr : (d.tookFree).pwr = d.pwr := rfl
@[simp] theorem Device.tookFree_fab : (d.tookFree).fab = d.fab := rfl
@[simp] theorem Device.tookFree_arb : (d.tookFree).arb = d.arb := rfl
@[simp] theorem Device.tookFree_parts : (d.tookFree).parts = d.parts := rfl
@[simp] theorem Device.tookFree_ten : (d.tookFree).ten = d.ten := rfl
@[simp] theorem Device.tookFree_mem : (d.tookFree).mem = d.mem := rfl
@[simp] theorem Device.tookFree_dram : (d.tookFree).dram = d.dram := rfl
@[simp] theorem Device.tookFree_peat : (d.tookFree).peat = d.peat := rfl
@[simp] theorem Device.tookFree_cam : (d.tookFree).cam = d.cam := rfl
@[simp] theorem Device.tookFree_aud : (d.tookFree).aud = d.aud := rfl
@[simp] theorem Device.tookFree_cas : (d.tookFree).cas = d.cas := rfl
@[simp] theorem Device.tookFree_hub : (d.tookFree).hub = d.hub := rfl
@[simp] theorem Device.tookFree_sec : (d.tookFree).sec = d.sec := rfl
@[simp] theorem Device.tookFree_i3c : (d.tookFree).i3c = d.i3c := rfl

/-! ### freeTag -/

@[simp] theorem Device.freeTag_aon (id : CmdId) : (d.freeTag id).aon = d.aon := rfl
@[simp] theorem Device.freeTag_ev (id : CmdId) : (d.freeTag id).ev = d.ev := rfl
@[simp] theorem Device.freeTag_pace (id : CmdId) : (d.freeTag id).pace = d.pace := rfl
@[simp] theorem Device.freeTag_therm (id : CmdId) : (d.freeTag id).therm = d.therm := rfl
@[simp] theorem Device.freeTag_pwr (id : CmdId) : (d.freeTag id).pwr = d.pwr := rfl
@[simp] theorem Device.freeTag_fab (id : CmdId) : (d.freeTag id).fab = d.fab := rfl
@[simp] theorem Device.freeTag_arb (id : CmdId) : (d.freeTag id).arb = d.arb := rfl
@[simp] theorem Device.freeTag_parts (id : CmdId) : (d.freeTag id).parts = d.parts := rfl
@[simp] theorem Device.freeTag_ten (id : CmdId) : (d.freeTag id).ten = d.ten := rfl
@[simp] theorem Device.freeTag_mem (id : CmdId) : (d.freeTag id).mem = d.mem := rfl
@[simp] theorem Device.freeTag_dram (id : CmdId) : (d.freeTag id).dram = d.dram := rfl
@[simp] theorem Device.freeTag_peat (id : CmdId) : (d.freeTag id).peat = d.peat := rfl
@[simp] theorem Device.freeTag_cam (id : CmdId) : (d.freeTag id).cam = d.cam := rfl
@[simp] theorem Device.freeTag_aud (id : CmdId) : (d.freeTag id).aud = d.aud := rfl
@[simp] theorem Device.freeTag_cas (id : CmdId) : (d.freeTag id).cas = d.cas := rfl
@[simp] theorem Device.freeTag_hub (id : CmdId) : (d.freeTag id).hub = d.hub := rfl
@[simp] theorem Device.freeTag_sec (id : CmdId) : (d.freeTag id).sec = d.sec := rfl
@[simp] theorem Device.freeTag_i3c (id : CmdId) : (d.freeTag id).i3c = d.i3c := rfl
@[simp] theorem Device.freeTag_freeCount (id : CmdId) : (d.freeTag id).freeCount = d.freeCount := rfl

/-! ### Reading what was written -/

@[simp] theorem Device.core_setCore (c e : Nat) (k : Core) : (d.setCore c k).core e = if e = c then k else d.core e :=
  SMap.get_set

@[simp] theorem Device.core_modCore (c e : Nat) (f : Core → Core) :
    (d.modCore c f).core e = if e = c then f (d.core c) else d.core e := SMap.get_set

@[simp] theorem Device.part_setPart (p q : Nat) (x : Part) : (d.setPart p x).part q = if q = p then x else d.part q :=
  SMap.get_set

@[simp] theorem Device.part_modPart (p q : Nat) (f : Part → Part) :
    (d.modPart p f).part q = if q = p then f (d.part p) else d.part q := SMap.get_set

@[simp] theorem Device.part_setCore (c q : Nat) (k : Core) : (d.setCore c k).part q = d.part q := rfl

@[simp] theorem Device.dom_modDom (i j : Nat) (f : DomSt → DomSt) :
    (d.modDom i f).dom j = if j = i then f (d.dom i) else d.dom j := SMap.get_set

@[simp] theorem Device.rail_modRail (r q : Nat) (f : RailSt → RailSt) :
    (d.modRail r f).rail q = if q = r then f (d.rail r) else d.rail q := SMap.get_set

@[simp] theorem Device.gknot_setGknot (i j : Nat) (x : GKnot) :
    (d.setGknot i x).gknot j = if j = i then x else d.gknot j := SMap.get_set

@[simp] theorem Device.lknot_setLknot (c i e j : Nat) (x : Knot) :
    (d.setLknot c i x).lknot e j = if 64 * e + j = 64 * c + i then x else d.lknot e j := SMap.get_set

@[simp] theorem Device.alloc?_setAlloc (i j : Nat) (a : Option Alloc) :
    (d.setAlloc i a).alloc? j = if j = i then a else d.alloc? j := SMap.get_set

@[simp] theorem Device.alloc?_modAlloc (i j : Nat) (f : Alloc → Alloc) :
    (d.modAlloc i f).alloc? j = if j = i then (d.alloc? i).map f else d.alloc? j := SMap.get_set

@[simp] theorem Device.weave?_modWeave (i j : Nat) (f : Weave → Weave) :
    (d.modWeave i f).weave? j = if j = i then (d.weave? i).map f else d.weave? j := SMap.get_set

@[simp] theorem Device.partOf_setCore (c e : Nat) (k : Core) : (d.setCore c k).partOf e = d.partOf e := rfl

/-- A record enters the fault log as its newest, numbered after the one before it (R392). -/
theorem Device.logFault_last (now code : Nat) (p c : Option Nat) (a b : Nat) :
    (d.logFault now code p c a b).aon.log.getLast? =
      some ⟨now, code, p.getD 0xFF, c, (d.aon.logCount + 1) % 2 ^ 32, a, b⟩ := by
  simp only [Device.logFault]
  rw [List.getLast?_drop]
  simp only [List.length_append, List.length_singleton, List.getLast?_append, List.getLast?_singleton]
  split
  · omega
  · rfl

/-- The fault log is a ring of 256 records (R392). -/
theorem Device.logFault_length (now code : Nat) (p c : Option Nat) (a b : Nat) :
    (d.logFault now code p c a b).aon.log.length = min 256 (d.aon.log.length + 1) := by
  simp [Device.logFault]; omega

end Sys2Proof.Machine
end

