-- ==== Sys2Proof/Laws/Ops.lean ====
section
/-! SUPPORT. The shared operations that answer: interrupt causes, replies, the order of replies (R203, R209, R210, R215). -/

namespace Sys2Proof.Machine

variable (d : Device)

/-! ### Interrupt causes -/

@[simp] theorem Device.irqLevel_aon : (d.irqLevel).aon = d.aon := rfl
@[simp] theorem Device.irqLevel_ev : (d.irqLevel).ev = d.ev := rfl
@[simp] theorem Device.irqLevel_pace : (d.irqLevel).pace = d.pace := rfl
@[simp] theorem Device.irqLevel_therm : (d.irqLevel).therm = d.therm := rfl
@[simp] theorem Device.irqLevel_pwr : (d.irqLevel).pwr = d.pwr := rfl
@[simp] theorem Device.irqLevel_fab : (d.irqLevel).fab = d.fab := rfl
@[simp] theorem Device.irqLevel_arb : (d.irqLevel).arb = d.arb := rfl
@[simp] theorem Device.irqLevel_parts : (d.irqLevel).parts = d.parts := rfl
@[simp] theorem Device.irqLevel_ten : (d.irqLevel).ten = d.ten := rfl
@[simp] theorem Device.irqLevel_mem : (d.irqLevel).mem = d.mem := rfl
@[simp] theorem Device.irqLevel_dram : (d.irqLevel).dram = d.dram := rfl
@[simp] theorem Device.irqLevel_peat : (d.irqLevel).peat = d.peat := rfl
@[simp] theorem Device.irqLevel_cam : (d.irqLevel).cam = d.cam := rfl
@[simp] theorem Device.irqLevel_aud : (d.irqLevel).aud = d.aud := rfl
@[simp] theorem Device.irqLevel_cas : (d.irqLevel).cas = d.cas := rfl
@[simp] theorem Device.irqLevel_hub : (d.irqLevel).hub = d.hub := rfl
@[simp] theorem Device.irqLevel_sec : (d.irqLevel).sec = d.sec := rfl
@[simp] theorem Device.irqLevel_i3c : (d.irqLevel).i3c = d.i3c := rfl
@[simp] theorem Device.irqLevel_freeCount : (d.irqLevel).freeCount = d.freeCount := rfl

@[simp] theorem Device.sendVector_aon (n : Nat) : (d.sendVector n).aon = d.aon := by unfold Device.sendVector; (repeat' split) <;> rfl
@[simp] theorem Device.sendVector_ev (n : Nat) : (d.sendVector n).ev = d.ev := by unfold Device.sendVector; (repeat' split) <;> rfl
@[simp] theorem Device.sendVector_pace (n : Nat) : (d.sendVector n).pace = d.pace := by unfold Device.sendVector; (repeat' split) <;> rfl
@[simp] theorem Device.sendVector_therm (n : Nat) : (d.sendVector n).therm = d.therm := by unfold Device.sendVector; (repeat' split) <;> rfl
@[simp] theorem Device.sendVector_pwr (n : Nat) : (d.sendVector n).pwr = d.pwr := by unfold Device.sendVector; (repeat' split) <;> rfl
@[simp] theorem Device.sendVector_fab (n : Nat) : (d.sendVector n).fab = d.fab := by unfold Device.sendVector; (repeat' split) <;> rfl
@[simp] theorem Device.sendVector_arb (n : Nat) : (d.sendVector n).arb = d.arb := by unfold Device.sendVector; (repeat' split) <;> rfl
@[simp] theorem Device.sendVector_parts (n : Nat) : (d.sendVector n).parts = d.parts := by unfold Device.sendVector; (repeat' split) <;> rfl
@[simp] theorem Device.sendVector_ten (n : Nat) : (d.sendVector n).ten = d.ten := by unfold Device.sendVector; (repeat' split) <;> rfl
@[simp] theorem Device.sendVector_mem (n : Nat) : (d.sendVector n).mem = d.mem := by unfold Device.sendVector; (repeat' split) <;> rfl
@[simp] theorem Device.sendVector_dram (n : Nat) : (d.sendVector n).dram = d.dram := by unfold Device.sendVector; (repeat' split) <;> rfl
@[simp] theorem Device.sendVector_peat (n : Nat) : (d.sendVector n).peat = d.peat := by unfold Device.sendVector; (repeat' split) <;> rfl
@[simp] theorem Device.sendVector_cam (n : Nat) : (d.sendVector n).cam = d.cam := by unfold Device.sendVector; (repeat' split) <;> rfl
@[simp] theorem Device.sendVector_aud (n : Nat) : (d.sendVector n).aud = d.aud := by unfold Device.sendVector; (repeat' split) <;> rfl
@[simp] theorem Device.sendVector_cas (n : Nat) : (d.sendVector n).cas = d.cas := by unfold Device.sendVector; (repeat' split) <;> rfl
@[simp] theorem Device.sendVector_hub (n : Nat) : (d.sendVector n).hub = d.hub := by unfold Device.sendVector; (repeat' split) <;> rfl
@[simp] theorem Device.sendVector_sec (n : Nat) : (d.sendVector n).sec = d.sec := by unfold Device.sendVector; (repeat' split) <;> rfl
@[simp] theorem Device.sendVector_i3c (n : Nat) : (d.sendVector n).i3c = d.i3c := by unfold Device.sendVector; (repeat' split) <;> rfl
@[simp] theorem Device.sendVector_freeCount (n : Nat) : (d.sendVector n).freeCount = d.freeCount := by unfold Device.sendVector; (repeat' split) <;> rfl

@[simp] theorem Device.setCause_aon (n : Nat) : (d.setCause n).aon = d.aon := by simp only [Device.setCause]; split <;> simp
@[simp] theorem Device.setCause_ev (n : Nat) : (d.setCause n).ev = d.ev := by simp only [Device.setCause]; split <;> simp
@[simp] theorem Device.setCause_pace (n : Nat) : (d.setCause n).pace = d.pace := by simp only [Device.setCause]; split <;> simp
@[simp] theorem Device.setCause_therm (n : Nat) : (d.setCause n).therm = d.therm := by simp only [Device.setCause]; split <;> simp
@[simp] theorem Device.setCause_pwr (n : Nat) : (d.setCause n).pwr = d.pwr := by simp only [Device.setCause]; split <;> simp
@[simp] theorem Device.setCause_fab (n : Nat) : (d.setCause n).fab = d.fab := by simp only [Device.setCause]; split <;> simp
@[simp] theorem Device.setCause_arb (n : Nat) : (d.setCause n).arb = d.arb := by simp only [Device.setCause]; split <;> simp
@[simp] theorem Device.setCause_parts (n : Nat) : (d.setCause n).parts = d.parts := by simp only [Device.setCause]; split <;> simp
@[simp] theorem Device.setCause_ten (n : Nat) : (d.setCause n).ten = d.ten := by simp only [Device.setCause]; split <;> simp
@[simp] theorem Device.setCause_mem (n : Nat) : (d.setCause n).mem = d.mem := by simp only [Device.setCause]; split <;> simp
@[simp] theorem Device.setCause_dram (n : Nat) : (d.setCause n).dram = d.dram := by simp only [Device.setCause]; split <;> simp
@[simp] theorem Device.setCause_peat (n : Nat) : (d.setCause n).peat = d.peat := by simp only [Device.setCause]; split <;> simp
@[simp] theorem Device.setCause_cam (n : Nat) : (d.setCause n).cam = d.cam := by simp only [Device.setCause]; split <;> simp
@[simp] theorem Device.setCause_aud (n : Nat) : (d.setCause n).aud = d.aud := by simp only [Device.setCause]; split <;> simp
@[simp] theorem Device.setCause_cas (n : Nat) : (d.setCause n).cas = d.cas := by simp only [Device.setCause]; split <;> simp
@[simp] theorem Device.setCause_hub (n : Nat) : (d.setCause n).hub = d.hub := by simp only [Device.setCause]; split <;> simp
@[simp] theorem Device.setCause_sec (n : Nat) : (d.setCause n).sec = d.sec := by simp only [Device.setCause]; split <;> simp
@[simp] theorem Device.setCause_i3c (n : Nat) : (d.setCause n).i3c = d.i3c := by simp only [Device.setCause]; split <;> simp
@[simp] theorem Device.setCause_freeCount (n : Nat) : (d.setCause n).freeCount = d.freeCount := by simp only [Device.setCause]; split <;> simp

@[simp] theorem Device.setCause_port_replies (n : Nat) : (d.setCause n).port.replies = d.port.replies := by
  simp only [Device.setCause, Device.sendVector, Device.irqLevel]; (repeat' split) <;> rfl
@[simp] theorem Device.setCause_port_rseq (n : Nat) : (d.setCause n).port.rseq = d.port.rseq := by
  simp only [Device.setCause, Device.sendVector, Device.irqLevel]; (repeat' split) <;> rfl
@[simp] theorem Device.setCause_port_order (n : Nat) : (d.setCause n).port.order = d.port.order := by
  simp only [Device.setCause, Device.sendVector, Device.irqLevel]; (repeat' split) <;> rfl
@[simp] theorem Device.setCause_port_tags (n : Nat) : (d.setCause n).port.tags = d.port.tags := by
  simp only [Device.setCause, Device.sendVector, Device.irqLevel]; (repeat' split) <;> rfl
@[simp] theorem Device.setCause_port_interp (n : Nat) : (d.setCause n).port.interp = d.port.interp := by
  simp only [Device.setCause, Device.sendVector, Device.irqLevel]; (repeat' split) <;> rfl
@[simp] theorem Device.setCause_port_epoch (n : Nat) : (d.setCause n).port.epoch = d.port.epoch := by
  simp only [Device.setCause, Device.sendVector, Device.irqLevel]; (repeat' split) <;> rfl
@[simp] theorem Device.setCause_port_fifo (n : Nat) : (d.setCause n).port.fifo = d.port.fifo := by
  simp only [Device.setCause, Device.sendVector, Device.irqLevel]; (repeat' split) <;> rfl
@[simp] theorem Device.setCause_port_stage (n : Nat) : (d.setCause n).port.stage = d.port.stage := by
  simp only [Device.setCause, Device.sendVector, Device.irqLevel]; (repeat' split) <;> rfl
@[simp] theorem Device.setCause_port_expSeq (n : Nat) : (d.setCause n).port.expSeq = d.port.expSeq := by
  simp only [Device.setCause, Device.sendVector, Device.irqLevel]; (repeat' split) <;> rfl
@[simp] theorem Device.setCause_port_lastGood (n : Nat) : (d.setCause n).port.lastGood = d.port.lastGood := by
  simp only [Device.setCause, Device.sendVector, Device.irqLevel]; (repeat' split) <;> rfl
@[simp] theorem Device.setCause_port_err (n : Nat) : (d.setCause n).port.err = d.port.err := by
  simp only [Device.setCause, Device.sendVector, Device.irqLevel]; (repeat' split) <;> rfl
@[simp] theorem Device.setCause_port_arrIdx (n : Nat) : (d.setCause n).port.arrIdx = d.port.arrIdx := by
  simp only [Device.setCause, Device.sendVector, Device.irqLevel]; (repeat' split) <;> rfl
@[simp] theorem Device.setCause_port_arrHdr (n : Nat) : (d.setCause n).port.arrHdr = d.port.arrHdr := by
  simp only [Device.setCause, Device.sendVector, Device.irqLevel]; (repeat' split) <;> rfl
@[simp] theorem Device.setCause_port_arrSeq (n : Nat) : (d.setCause n).port.arrSeq = d.port.arrSeq := by
  simp only [Device.setCause, Device.sendVector, Device.irqLevel]; (repeat' split) <;> rfl
@[simp] theorem Device.setCause_port_rpos (n : Nat) : (d.setCause n).port.rpos = d.port.rpos := by
  simp only [Device.setCause, Device.sendVector, Device.irqLevel]; (repeat' split) <;> rfl
@[simp] theorem Device.setCause_port_rlast (n : Nat) : (d.setCause n).port.rlast = d.port.rlast := by
  simp only [Device.setCause, Device.sendVector, Device.irqLevel]; (repeat' split) <;> rfl
@[simp] theorem Device.setCause_port_creditThresh (n : Nat) : (d.setCause n).port.creditThresh = d.port.creditThresh := by
  simp only [Device.setCause, Device.sendVector, Device.irqLevel]; (repeat' split) <;> rfl
@[simp] theorem Device.setCause_port_msix (n : Nat) : (d.setCause n).port.msix = d.port.msix := by
  simp only [Device.setCause, Device.sendVector, Device.irqLevel]; (repeat' split) <;> rfl
@[simp] theorem Device.setCause_port_xspiMode (n : Nat) : (d.setCause n).port.xspiMode = d.port.xspiMode := by
  simp only [Device.setCause, Device.sendVector, Device.irqLevel]; (repeat' split) <;> rfl
@[simp] theorem Device.setCause_port_timeHi (n : Nat) : (d.setCause n).port.timeHi = d.port.timeHi := by
  simp only [Device.setCause, Device.sendVector, Device.irqLevel]; (repeat' split) <;> rfl
@[simp] theorem Device.setCause_port_readData (n : Nat) : (d.setCause n).port.readData = d.port.readData := by
  simp only [Device.setCause, Device.sendVector, Device.irqLevel]; (repeat' split) <;> rfl
@[simp] theorem Device.setCause_port_mask (n : Nat) : (d.setCause n).port.mask = d.port.mask := by
  simp only [Device.setCause, Device.sendVector, Device.irqLevel]; (repeat' split) <;> rfl

/-- Setting a cause sets its bit and no other (R215). -/
@[simp] theorem Device.setCause_port_cause (n : Nat) : (d.setCause n).port.cause = d.port.cause ||| (1 <<< n) := by
  simp only [Device.setCause, Device.sendVector, Device.irqLevel]; (repeat' split) <;> rfl

/-- HOST_IRQ_N is low exactly while a cause is set and not masked (R216). -/
theorem Device.setCause_irqLow (n : Nat) :
    (d.setCause n).port.irqLow = decide ((d.port.cause ||| (1 <<< n)) &&& ~~~ d.port.mask ≠ 0) := by
  simp only [Device.setCause, Device.sendVector, Device.irqLevel]; (repeat' split) <;> rfl

/-! ### One reply -/

/-- A reply to a command of this port epoch enters the queue with the next RSEQ (R209, R210). -/
theorem Device.reply_now {id : CmdId} (h : id.epoch = d.port.epoch) (status time : Nat) (rs : List Word) :
    d.reply id status time rs = Device.setCause
      { d with port := { d.port with replies := d.port.replies ++ [replyWords id status time d.port.rseq rs]
                                     rseq := (d.port.rseq + 1) % 2 ^ 32 } } causeReply := by
  simp [Device.reply, h]

/-- A reply to a command from before a port reset is discarded (R192). -/
theorem Device.reply_stale {id : CmdId} (h : id.epoch ≠ d.port.epoch) (status time : Nat) (rs : List Word) :
    d.reply id status time rs = d := by
  simp [Device.reply, h]

@[simp] theorem Device.reply_aon (id : CmdId) (st time : Nat) (rs : List Word) :
    (d.reply id st time rs).aon = d.aon := by unfold Device.reply; split <;> simp
@[simp] theorem Device.reply_ev (id : CmdId) (st time : Nat) (rs : List Word) :
    (d.reply id st time rs).ev = d.ev := by unfold Device.reply; split <;> simp
@[simp] theorem Device.reply_pace (id : CmdId) (st time : Nat) (rs : List Word) :
    (d.reply id st time rs).pace = d.pace := by unfold Device.reply; split <;> simp
@[simp] theorem Device.reply_therm (id : CmdId) (st time : Nat) (rs : List Word) :
    (d.reply id st time rs).therm = d.therm := by unfold Device.reply; split <;> simp
@[simp] theorem Device.reply_pwr (id : CmdId) (st time : Nat) (rs : List Word) :
    (d.reply id st time rs).pwr = d.pwr := by unfold Device.reply; split <;> simp
@[simp] theorem Device.reply_fab (id : CmdId) (st time : Nat) (rs : List Word) :
    (d.reply id st time rs).fab = d.fab := by unfold Device.reply; split <;> simp
@[simp] theorem Device.reply_arb (id : CmdId) (st time : Nat) (rs : List Word) :
    (d.reply id st time rs).arb = d.arb := by unfold Device.reply; split <;> simp
@[simp] theorem Device.reply_parts (id : CmdId) (st time : Nat) (rs : List Word) :
    (d.reply id st time rs).parts = d.parts := by unfold Device.reply; split <;> simp
@[simp] theorem Device.reply_ten (id : CmdId) (st time : Nat) (rs : List Word) :
    (d.reply id st time rs).ten = d.ten := by unfold Device.reply; split <;> simp
@[simp] theorem Device.reply_mem (id : CmdId) (st time : Nat) (rs : List Word) :
    (d.reply id st time rs).mem = d.mem := by unfold Device.reply; split <;> simp
@[simp] theorem Device.reply_dram (id : CmdId) (st time : Nat) (rs : List Word) :
    (d.reply id st time rs).dram = d.dram := by unfold Device.reply; split <;> simp
@[simp] theorem Device.reply_peat (id : CmdId) (st time : Nat) (rs : List Word) :
    (d.reply id st time rs).peat = d.peat := by unfold Device.reply; split <;> simp
@[simp] theorem Device.reply_cam (id : CmdId) (st time : Nat) (rs : List Word) :
    (d.reply id st time rs).cam = d.cam := by unfold Device.reply; split <;> simp
@[simp] theorem Device.reply_aud (id : CmdId) (st time : Nat) (rs : List Word) :
    (d.reply id st time rs).aud = d.aud := by unfold Device.reply; split <;> simp
@[simp] theorem Device.reply_cas (id : CmdId) (st time : Nat) (rs : List Word) :
    (d.reply id st time rs).cas = d.cas := by unfold Device.reply; split <;> simp
@[simp] theorem Device.reply_hub (id : CmdId) (st time : Nat) (rs : List Word) :
    (d.reply id st time rs).hub = d.hub := by unfold Device.reply; split <;> simp
@[simp] theorem Device.reply_sec (id : CmdId) (st time : Nat) (rs : List Word) :
    (d.reply id st time rs).sec = d.sec := by unfold Device.reply; split <;> simp
@[simp] theorem Device.reply_i3c (id : CmdId) (st time : Nat) (rs : List Word) :
    (d.reply id st time rs).i3c = d.i3c := by unfold Device.reply; split <;> simp
@[simp] theorem Device.reply_freeCount (id : CmdId) (st time : Nat) (rs : List Word) :
    (d.reply id st time rs).freeCount = d.freeCount := by unfold Device.reply; split <;> simp

@[simp] theorem Device.reply_port_order (id : CmdId) (st time : Nat) (rs : List Word) :
    (d.reply id st time rs).port.order = d.port.order := by unfold Device.reply; split <;> simp

@[simp] theorem Device.reply_port_interp (id : CmdId) (st time : Nat) (rs : List Word) :
    (d.reply id st time rs).port.interp = d.port.interp := by unfold Device.reply; split <;> simp

@[simp] theorem Device.reply_port_tags (id : CmdId) (st time : Nat) (rs : List Word) :
    (d.reply id st time rs).port.tags = d.port.tags := by unfold Device.reply; split <;> simp

@[simp] theorem Device.reply_port_epoch (id : CmdId) (st time : Nat) (rs : List Word) :
    (d.reply id st time rs).port.epoch = d.port.epoch := by unfold Device.reply; split <;> simp

/-! ### Answering -/

@[simp] theorem Device.noteAsk_aon (now : Nat) (id : CmdId) (r : Nat) :
    (d.noteAsk now id r).aon = d.aon := by unfold Device.noteAsk; (repeat' split) <;> rfl
@[simp] theorem Device.noteAsk_ev (now : Nat) (id : CmdId) (r : Nat) :
    (d.noteAsk now id r).ev = d.ev := by unfold Device.noteAsk; (repeat' split) <;> rfl
@[simp] theorem Device.noteAsk_pace (now : Nat) (id : CmdId) (r : Nat) :
    (d.noteAsk now id r).pace = d.pace := by unfold Device.noteAsk; (repeat' split) <;> rfl
@[simp] theorem Device.noteAsk_therm (now : Nat) (id : CmdId) (r : Nat) :
    (d.noteAsk now id r).therm = d.therm := by unfold Device.noteAsk; (repeat' split) <;> rfl
@[simp] theorem Device.noteAsk_pwr (now : Nat) (id : CmdId) (r : Nat) :
    (d.noteAsk now id r).pwr = d.pwr := by unfold Device.noteAsk; (repeat' split) <;> rfl
@[simp] theorem Device.noteAsk_fab (now : Nat) (id : CmdId) (r : Nat) :
    (d.noteAsk now id r).fab = d.fab := by unfold Device.noteAsk; (repeat' split) <;> rfl
@[simp] theorem Device.noteAsk_arb (now : Nat) (id : CmdId) (r : Nat) :
    (d.noteAsk now id r).arb = d.arb := by unfold Device.noteAsk; (repeat' split) <;> rfl
@[simp] theorem Device.noteAsk_parts (now : Nat) (id : CmdId) (r : Nat) :
    (d.noteAsk now id r).parts = d.parts := by unfold Device.noteAsk; (repeat' split) <;> rfl
@[simp] theorem Device.noteAsk_ten (now : Nat) (id : CmdId) (r : Nat) :
    (d.noteAsk now id r).ten = d.ten := by unfold Device.noteAsk; (repeat' split) <;> rfl
@[simp] theorem Device.noteAsk_mem (now : Nat) (id : CmdId) (r : Nat) :
    (d.noteAsk now id r).mem = d.mem := by unfold Device.noteAsk; (repeat' split) <;> rfl
@[simp] theorem Device.noteAsk_dram (now : Nat) (id : CmdId) (r : Nat) :
    (d.noteAsk now id r).dram = d.dram := by unfold Device.noteAsk; (repeat' split) <;> rfl
@[simp] theorem Device.noteAsk_peat (now : Nat) (id : CmdId) (r : Nat) :
    (d.noteAsk now id r).peat = d.peat := by unfold Device.noteAsk; (repeat' split) <;> rfl
@[simp] theorem Device.noteAsk_cam (now : Nat) (id : CmdId) (r : Nat) :
    (d.noteAsk now id r).cam = d.cam := by unfold Device.noteAsk; (repeat' split) <;> rfl
@[simp] theorem Device.noteAsk_aud (now : Nat) (id : CmdId) (r : Nat) :
    (d.noteAsk now id r).aud = d.aud := by unfold Device.noteAsk; (repeat' split) <;> rfl
@[simp] theorem Device.noteAsk_cas (now : Nat) (id : CmdId) (r : Nat) :
    (d.noteAsk now id r).cas = d.cas := by unfold Device.noteAsk; (repeat' split) <;> rfl
@[simp] theorem Device.noteAsk_sec (now : Nat) (id : CmdId) (r : Nat) :
    (d.noteAsk now id r).sec = d.sec := by unfold Device.noteAsk; (repeat' split) <;> rfl
@[simp] theorem Device.noteAsk_i3c (now : Nat) (id : CmdId) (r : Nat) :
    (d.noteAsk now id r).i3c = d.i3c := by unfold Device.noteAsk; (repeat' split) <;> rfl
@[simp] theorem Device.noteAsk_freeCount (now : Nat) (id : CmdId) (r : Nat) :
    (d.noteAsk now id r).freeCount = d.freeCount := by unfold Device.noteAsk; (repeat' split) <;> rfl
@[simp] theorem Device.noteAsk_port (now : Nat) (id : CmdId) (r : Nat) :
    (d.noteAsk now id r).port = d.port := by unfold Device.noteAsk; (repeat' split) <;> rfl

@[simp] theorem Device.complete_aon (now : Nat) (id : CmdId) (st : Nat) (rs : List Word) :
    (d.complete now id st rs).aon = d.aon := by simp [Device.complete]
@[simp] theorem Device.complete_ev (now : Nat) (id : CmdId) (st : Nat) (rs : List Word) :
    (d.complete now id st rs).ev = d.ev := by simp [Device.complete]
@[simp] theorem Device.complete_pace (now : Nat) (id : CmdId) (st : Nat) (rs : List Word) :
    (d.complete now id st rs).pace = d.pace := by simp [Device.complete]
@[simp] theorem Device.complete_therm (now : Nat) (id : CmdId) (st : Nat) (rs : List Word) :
    (d.complete now id st rs).therm = d.therm := by simp [Device.complete]
@[simp] theorem Device.complete_pwr (now : Nat) (id : CmdId) (st : Nat) (rs : List Word) :
    (d.complete now id st rs).pwr = d.pwr := by simp [Device.complete]
@[simp] theorem Device.complete_fab (now : Nat) (id : CmdId) (st : Nat) (rs : List Word) :
    (d.complete now id st rs).fab = d.fab := by simp [Device.complete]
@[simp] theorem Device.complete_arb (now : Nat) (id : CmdId) (st : Nat) (rs : List Word) :
    (d.complete now id st rs).arb = d.arb := by simp [Device.complete]
@[simp] theorem Device.complete_parts (now : Nat) (id : CmdId) (st : Nat) (rs : List Word) :
    (d.complete now id st rs).parts = d.parts := by simp [Device.complete]
@[simp] theorem Device.complete_ten (now : Nat) (id : CmdId) (st : Nat) (rs : List Word) :
    (d.complete now id st rs).ten = d.ten := by simp [Device.complete]
@[simp] theorem Device.complete_mem (now : Nat) (id : CmdId) (st : Nat) (rs : List Word) :
    (d.complete now id st rs).mem = d.mem := by simp [Device.complete]
@[simp] theorem Device.complete_dram (now : Nat) (id : CmdId) (st : Nat) (rs : List Word) :
    (d.complete now id st rs).dram = d.dram := by simp [Device.complete]
@[simp] theorem Device.complete_peat (now : Nat) (id : CmdId) (st : Nat) (rs : List Word) :
    (d.complete now id st rs).peat = d.peat := by simp [Device.complete]
@[simp] theorem Device.complete_cam (now : Nat) (id : CmdId) (st : Nat) (rs : List Word) :
    (d.complete now id st rs).cam = d.cam := by simp [Device.complete]
@[simp] theorem Device.complete_aud (now : Nat) (id : CmdId) (st : Nat) (rs : List Word) :
    (d.complete now id st rs).aud = d.aud := by simp [Device.complete]
@[simp] theorem Device.complete_cas (now : Nat) (id : CmdId) (st : Nat) (rs : List Word) :
    (d.complete now id st rs).cas = d.cas := by simp [Device.complete]
@[simp] theorem Device.complete_sec (now : Nat) (id : CmdId) (st : Nat) (rs : List Word) :
    (d.complete now id st rs).sec = d.sec := by simp [Device.complete]
@[simp] theorem Device.complete_i3c (now : Nat) (id : CmdId) (st : Nat) (rs : List Word) :
    (d.complete now id st rs).i3c = d.i3c := by simp [Device.complete]
@[simp] theorem Device.complete_freeCount (now : Nat) (id : CmdId) (st : Nat) (rs : List Word) :
    (d.complete now id st rs).freeCount = d.freeCount := by simp [Device.complete]
@[simp] theorem Device.release_aon (now : Nat) (l : List Turn) : (d.release now l).aon = d.aon := by
  induction l generalizing d with
  | nil => rfl
  | cons t l ih =>
    rcases t with ⟨id, tagged, _ | ⟨st, rs⟩⟩
    · rfl
    · simp only [Device.release, ih]; split <;> simp
@[simp] theorem Device.release_ev (now : Nat) (l : List Turn) : (d.release now l).ev = d.ev := by
  induction l generalizing d with
  | nil => rfl
  | cons t l ih =>
    rcases t with ⟨id, tagged, _ | ⟨st, rs⟩⟩
    · rfl
    · simp only [Device.release, ih]; split <;> simp
@[simp] theorem Device.release_pace (now : Nat) (l : List Turn) : (d.release now l).pace = d.pace := by
  induction l generalizing d with
  | nil => rfl
  | cons t l ih =>
    rcases t with ⟨id, tagged, _ | ⟨st, rs⟩⟩
    · rfl
    · simp only [Device.release, ih]; split <;> simp
@[simp] theorem Device.release_therm (now : Nat) (l : List Turn) : (d.release now l).therm = d.therm := by
  induction l generalizing d with
  | nil => rfl
  | cons t l ih =>
    rcases t with ⟨id, tagged, _ | ⟨st, rs⟩⟩
    · rfl
    · simp only [Device.release, ih]; split <;> simp
@[simp] theorem Device.release_pwr (now : Nat) (l : List Turn) : (d.release now l).pwr = d.pwr := by
  induction l generalizing d with
  | nil => rfl
  | cons t l ih =>
    rcases t with ⟨id, tagged, _ | ⟨st, rs⟩⟩
    · rfl
    · simp only [Device.release, ih]; split <;> simp
@[simp] theorem Device.release_fab (now : Nat) (l : List Turn) : (d.release now l).fab = d.fab := by
  induction l generalizing d with
  | nil => rfl
  | cons t l ih =>
    rcases t with ⟨id, tagged, _ | ⟨st, rs⟩⟩
    · rfl
    · simp only [Device.release, ih]; split <;> simp
@[simp] theorem Device.release_arb (now : Nat) (l : List Turn) : (d.release now l).arb = d.arb := by
  induction l generalizing d with
  | nil => rfl
  | cons t l ih =>
    rcases t with ⟨id, tagged, _ | ⟨st, rs⟩⟩
    · rfl
    · simp only [Device.release, ih]; split <;> simp
@[simp] theorem Device.release_parts (now : Nat) (l : List Turn) : (d.release now l).parts = d.parts := by
  induction l generalizing d with
  | nil => rfl
  | cons t l ih =>
    rcases t with ⟨id, tagged, _ | ⟨st, rs⟩⟩
    · rfl
    · simp only [Device.release, ih]; split <;> simp
@[simp] theorem Device.release_ten (now : Nat) (l : List Turn) : (d.release now l).ten = d.ten := by
  induction l generalizing d with
  | nil => rfl
  | cons t l ih =>
    rcases t with ⟨id, tagged, _ | ⟨st, rs⟩⟩
    · rfl
    · simp only [Device.release, ih]; split <;> simp
@[simp] theorem Device.release_mem (now : Nat) (l : List Turn) : (d.release now l).mem = d.mem := by
  induction l generalizing d with
  | nil => rfl
  | cons t l ih =>
    rcases t with ⟨id, tagged, _ | ⟨st, rs⟩⟩
    · rfl
    · simp only [Device.release, ih]; split <;> simp
@[simp] theorem Device.release_dram (now : Nat) (l : List Turn) : (d.release now l).dram = d.dram := by
  induction l generalizing d with
  | nil => rfl
  | cons t l ih =>
    rcases t with ⟨id, tagged, _ | ⟨st, rs⟩⟩
    · rfl
    · simp only [Device.release, ih]; split <;> simp
@[simp] theorem Device.release_peat (now : Nat) (l : List Turn) : (d.release now l).peat = d.peat := by
  induction l generalizing d with
  | nil => rfl
  | cons t l ih =>
    rcases t with ⟨id, tagged, _ | ⟨st, rs⟩⟩
    · rfl
    · simp only [Device.release, ih]; split <;> simp
@[simp] theorem Device.release_cam (now : Nat) (l : List Turn) : (d.release now l).cam = d.cam := by
  induction l generalizing d with
  | nil => rfl
  | cons t l ih =>
    rcases t with ⟨id, tagged, _ | ⟨st, rs⟩⟩
    · rfl
    · simp only [Device.release, ih]; split <;> simp
@[simp] theorem Device.release_aud (now : Nat) (l : List Turn) : (d.release now l).aud = d.aud := by
  induction l generalizing d with
  | nil => rfl
  | cons t l ih =>
    rcases t with ⟨id, tagged, _ | ⟨st, rs⟩⟩
    · rfl
    · simp only [Device.release, ih]; split <;> simp
@[simp] theorem Device.release_cas (now : Nat) (l : List Turn) : (d.release now l).cas = d.cas := by
  induction l generalizing d with
  | nil => rfl
  | cons t l ih =>
    rcases t with ⟨id, tagged, _ | ⟨st, rs⟩⟩
    · rfl
    · simp only [Device.release, ih]; split <;> simp
@[simp] theorem Device.release_sec (now : Nat) (l : List Turn) : (d.release now l).sec = d.sec := by
  induction l generalizing d with
  | nil => rfl
  | cons t l ih =>
    rcases t with ⟨id, tagged, _ | ⟨st, rs⟩⟩
    · rfl
    · simp only [Device.release, ih]; split <;> simp
@[simp] theorem Device.release_i3c (now : Nat) (l : List Turn) : (d.release now l).i3c = d.i3c := by
  induction l generalizing d with
  | nil => rfl
  | cons t l ih =>
    rcases t with ⟨id, tagged, _ | ⟨st, rs⟩⟩
    · rfl
    · simp only [Device.release, ih]; split <;> simp
@[simp] theorem Device.release_freeCount (now : Nat) (l : List Turn) : (d.release now l).freeCount = d.freeCount := by
  induction l generalizing d with
  | nil => rfl
  | cons t l ih =>
    rcases t with ⟨id, tagged, _ | ⟨st, rs⟩⟩
    · rfl
    · simp only [Device.release, ih]; split <;> simp
@[simp] theorem Device.answer_aon (now : Nat) (id : CmdId) (st : Nat) (rs : List Word) :
    (d.answer now id st rs).aon = d.aon := by unfold Device.answer; split <;> simp
@[simp] theorem Device.answer_ev (now : Nat) (id : CmdId) (st : Nat) (rs : List Word) :
    (d.answer now id st rs).ev = d.ev := by unfold Device.answer; split <;> simp
@[simp] theorem Device.answer_pace (now : Nat) (id : CmdId) (st : Nat) (rs : List Word) :
    (d.answer now id st rs).pace = d.pace := by unfold Device.answer; split <;> simp
@[simp] theorem Device.answer_therm (now : Nat) (id : CmdId) (st : Nat) (rs : List Word) :
    (d.answer now id st rs).therm = d.therm := by unfold Device.answer; split <;> simp
@[simp] theorem Device.answer_pwr (now : Nat) (id : CmdId) (st : Nat) (rs : List Word) :
    (d.answer now id st rs).pwr = d.pwr := by unfold Device.answer; split <;> simp
@[simp] theorem Device.answer_fab (now : Nat) (id : CmdId) (st : Nat) (rs : List Word) :
    (d.answer now id st rs).fab = d.fab := by unfold Device.answer; split <;> simp
@[simp] theorem Device.answer_arb (now : Nat) (id : CmdId) (st : Nat) (rs : List Word) :
    (d.answer now id st rs).arb = d.arb := by unfold Device.answer; split <;> simp
@[simp] theorem Device.answer_parts (now : Nat) (id : CmdId) (st : Nat) (rs : List Word) :
    (d.answer now id st rs).parts = d.parts := by unfold Device.answer; split <;> simp
@[simp] theorem Device.answer_ten (now : Nat) (id : CmdId) (st : Nat) (rs : List Word) :
    (d.answer now id st rs).ten = d.ten := by unfold Device.answer; split <;> simp
@[simp] theorem Device.answer_mem (now : Nat) (id : CmdId) (st : Nat) (rs : List Word) :
    (d.answer now id st rs).mem = d.mem := by unfold Device.answer; split <;> simp
@[simp] theorem Device.answer_dram (now : Nat) (id : CmdId) (st : Nat) (rs : List Word) :
    (d.answer now id st rs).dram = d.dram := by unfold Device.answer; split <;> simp
@[simp] theorem Device.answer_peat (now : Nat) (id : CmdId) (st : Nat) (rs : List Word) :
    (d.answer now id st rs).peat = d.peat := by unfold Device.answer; split <;> simp
@[simp] theorem Device.answer_cam (now : Nat) (id : CmdId) (st : Nat) (rs : List Word) :
    (d.answer now id st rs).cam = d.cam := by unfold Device.answer; split <;> simp
@[simp] theorem Device.answer_aud (now : Nat) (id : CmdId) (st : Nat) (rs : List Word) :
    (d.answer now id st rs).aud = d.aud := by unfold Device.answer; split <;> simp
@[simp] theorem Device.answer_cas (now : Nat) (id : CmdId) (st : Nat) (rs : List Word) :
    (d.answer now id st rs).cas = d.cas := by unfold Device.answer; split <;> simp
@[simp] theorem Device.answer_sec (now : Nat) (id : CmdId) (st : Nat) (rs : List Word) :
    (d.answer now id st rs).sec = d.sec := by unfold Device.answer; split <;> simp
@[simp] theorem Device.answer_i3c (now : Nat) (id : CmdId) (st : Nat) (rs : List Word) :
    (d.answer now id st rs).i3c = d.i3c := by unfold Device.answer; split <;> simp
@[simp] theorem Device.answer_freeCount (now : Nat) (id : CmdId) (st : Nat) (rs : List Word) :
    (d.answer now id st rs).freeCount = d.freeCount := by unfold Device.answer; split <;> simp

/-- A command that asks no work, with none before it unanswered and none after it complete, is answered at once (R210). -/
theorem Device.answer_inTurn {id : CmdId} {l : List Turn} (h : d.port.order = ⟨id, true, none⟩ :: l)
    (hl : ∀ t r, l.head? = some t → t.reply ≠ some r) (now st : Nat) (rs : List Word) :
    d.answer now id st rs =
      { d.complete now id st rs with port := { (d.complete now id st rs).port with order := l } } := by
  have hw : d.waitsTurn id = true := by simp [Device.waitsTurn, h]
  simp only [Device.answer, hw, if_true, h, fillOrder, Device.release]
  cases l with
  | nil => rfl
  | cons t l =>
    rcases t with ⟨j, b, _ | r⟩
    · rfl
    · exact absurd rfl (hl _ r rfl)

/-- What the reply queue holds after a command of this port epoch is answered: its reply, last (R209, R210). -/
theorem Device.complete_replies {id : CmdId} (h : id.epoch = d.port.epoch) (now st : Nat) (rs : List Word) :
    (d.complete now id st rs).port.replies = d.port.replies ++ [replyWords id st now d.port.rseq rs] := by
  simp [Device.complete, Device.reply_now, h, Device.freeTag]

theorem Device.complete_rseq {id : CmdId} (h : id.epoch = d.port.epoch) (now st : Nat) (rs : List Word) :
    (d.complete now id st rs).port.rseq = (d.port.rseq + 1) % 2 ^ 32 := by
  simp [Device.complete, Device.reply_now, h, Device.freeTag]

/-- The tag of an answered command is free (R203). -/
theorem Device.complete_tag {id : CmdId} (now st : Nat) (rs : List Word) :
    ((d.complete now id st rs).port.tags.get {} (tagKey id.ctx id.tag)).busy = false := by
  simp [Device.complete, Device.freeTag]

@[simp] theorem Device.complete_interp {id : CmdId} (now st : Nat) (rs : List Word) :
    (d.complete now id st rs).port.interp = d.port.interp := by
  simp [Device.complete, Device.freeTag]

/-- A host command's row acts on the packet of its opcode that the interpreter holds (R429). -/
theorem hostCmd_serves {op : Nat} {s : State} {p : Packet} (f : Nat → Packet → Device → Device)
    (h : s.dev.port.interp = some p) (ho : p.id.op = op) (hi : s.dev.interprets = true) :
    hostCmd op s f =
      .next { s with dev := f s.now p { s.dev with port := { s.dev.port with interp := none } } } := by
  simp [hostCmd, State.act, h, ho, hi]

/-- The first check that holds answers; with none, the command goes on (R223). -/
theorem Device.checked_ok {now : Nat} {id : CmdId} {l : List (Bool × Nat)} {k : Device → Device}
    (h : ∀ e ∈ l, e.1 = false) : d.checked now id l k = k d := by
  have : firstFail l = none := by
    induction l with
    | nil => rfl
    | cons e l ih =>
      obtain ⟨b, st⟩ := e
      have hb : b = false := h (b, st) (by simp)
      subst hb
      simp only [firstFail, Bool.false_eq_true, if_false]
      exact ih fun e he => h e (by simp [he])
  simp [Device.checked, this]

end Sys2Proof.Machine
end

