-- ==== Sys2Proof/Laws/Core.lean ====
section
/-! SUPPORT. What an instruction of a core can do: nothing, go on, fault, or its own effect (R50, R53, R55). -/

namespace Sys2Proof.Machine

variable {s : State} {c : CoreId} {g : Guard} {f : Nat → Device → Device}

@[simp] theorem State.withCore_core (s : State) (c e : CoreId) (k : Core) :
    (s.withCore c k).core e = if e = c then k else s.core e := by
  simp only [State.withCore, State.core, Device.core_setCore]
  by_cases h : e = c
  · simp [h]
  · have : e.toNat ≠ c.toNat := fun x => h (BitVec.eq_of_toNat_eq x)
    simp [h, this]

theorem instr_notRunning (h : (s.core c).active = false) : instr c g s f = .next s := by
  simp only [State.core] at h; simp [instr, State.act, h]

theorem instr_outside (h : (s.core c).active = true) (hp : poolBytes ≤ (s.core c).pc) :
    instr c g s f = .next (s.withFault c fcPoolRange (s.core c).pc) := by
  simp only [State.core] at h hp; simp [instr, State.act, h, hp, State.withFault, State.core]

theorem instr_guardFails (h : (s.core c).active = true) (hp : (s.core c).pc < poolBytes)
    (hg : (s.core c).guardOk g = false) :
    instr c g s f = .next (s.withCore c { s.core c with pc := (s.core c).pcNext, run := .running }) := by
  simp only [State.core] at h hp hg
  have hp : ¬ poolBytes ≤ (s.dev.core c.toNat).pc := by omega
  simp [instr, State.act, h, hp, hg, State.withCore, Core.next, Core.goto, Core.pcNext, State.core]

theorem instr_executes (h : s.executes c g) : instr c g s f = .next { s with dev := f s.now s.dev } := by
  obtain ⟨h, hp, hg⟩ := h
  simp only [State.core] at h hp hg
  have hp : ¬ poolBytes ≤ (s.dev.core c.toNat).pc := by omega
  simp [instr, State.act, h, hp, hg]

theorem coreInstr_executes {ok : Bool} {f : Core → Core} (h : s.executes c g) (ho : ok = true) :
    coreInstr c g s ok f = .next (s.withCore c (f (s.core c))) := by
  simp [coreInstr, instr_executes h, ho, State.withCore, Device.modCore, State.core]

theorem coreInstr_reserved {ok : Bool} {f : Core → Core} (h : s.executes c g) (ho : ok = false) :
    coreInstr c g s ok f = .next (s.withFault c fcIllegal 0) := by
  simp [coreInstr, instr_executes h, ho, State.withFault]

/-- Every instruction of a core goes through the checks of `instr`: what holds of each outcome of it holds of the
instruction. -/
theorem exec_of_instr {P : Host.Outcome State Fault Refusal → Prop} {i : Instr} (h : i.coreGuard = some (c, g))
    (k : ∀ f, P (instr c g s f)) : P (exec i s) := by
  unfold Instr.coreGuard at h
  split at h
  case h_91 => cases h
  all_goals
    simp only [Option.some.injEq, Prod.mk.injEq] at h
    obtain ⟨rfl, rfl⟩ := h
    simp only [
      exec, execAdd, execSub, execAnd, execOr, execXor, execShl, execShr, execSra, execMul, execMulh, execMin,
      execMax, execCeq, execCne, execClt, execCltu, execCge, execCgeu, execPand, execPor, execPnot, execAddi,
      execAndi, execOri, execXori, execShli, execShri, execSrai, execClti, execMovl, execMovh, execBr,
      execCall, execJr, execLoop, execLdw, execLdh, execLdb, execStw, execSth, execStb, execLdv, execStv,
      execLdd, execStd, execVadd, execVsub, execVmul, execVmax, execVmin, execVabs, execVneg, execVand,
      execVor, execVxor, execVshl, execVshr, execVsra, execVfma, execVrecip, execVrsqrt, execVexp2,
      execVredsum, execVredmax, execVcvt, execVbcast, execVgetl, execVaccrd, execVaccwr, execMxrun, execMxwait,
      execMxsat, execMxsatclr, execSend, execPost, execMfree, execMptr, execKsig, execKwait, execKinit,
      execKarm, execKrd, execPmq, execPmwait, execKvwalk, execNop, execSysrd, execSyswr, execFence, execHalt,
      alu, aluImm, compare, predLogic, poolLoad, poolStore, poolAccess, vecBin, vecUn, vecRed, vecInstr,
      accMove, satInstr, postKnot, coreInstr]
    exact k _

end Sys2Proof.Machine
end

