-- ==== Sys2Proof/Laws/Memory.lean ====
section
/-! SUPPORT. Allocation memory keeps its canonical form under every operation, and so does a core's pool; a byte written is
the byte read, and every other byte is as before. -/

namespace Sys2Proof.Machine

variable {α : Type} [DecidableEq α] {e : α}

theorem Mem.wf_iff {m : Mem} : m.wf = true ↔ m.bytes.wf 0 = true ∧ m.dirty.wf false = true ∧ m.dirtyPages.wf false = true
    ∧ m.staged.wf false = true ∧ m.poison.wf false = true ∧ m.form.wf .fresh = true ∧ m.window.wf false = true
    ∧ m.full.wf false = true ∧ m.rewritten.wf false = true := by
  simp [Mem.wf, and_assoc]

/-- Memory after reset lists nothing (R168). -/
theorem reset_mem_wf : State.reset.dev.mem.wf = true := by decide

/-! ### Lists of keys -/

theorem wf_setAll {v : α} : ∀ {ks : List Nat} {m : SMap α}, m.wf e = true → SMap.wf e (setAll e m ks v) = true
  | [], _, h => h
  | k :: _, m, h => wf_setAll (m := m.set e k v) (SMap.wf_set h)

theorem wf_foldl_clear {f g : Nat → Nat} : ∀ {ks : List Nat} {m : SMap α}, m.wf e = true →
    SMap.wf e (ks.foldl (fun l k => SMap.clear l (f k) (g k)) m) = true
  | [], _, h => h
  | k :: _, m, h => wf_foldl_clear (m := m.clear (f k) (g k)) (SMap.wf_clear h)

theorem get_setAll {v : α} {j : Nat} : ∀ {ks : List Nat} {m : SMap α},
    (setAll e m ks v).get e j = if j ∈ ks then v else m.get e j
  | [], _ => by simp [setAll]
  | k :: ks, m => by
    have h := get_setAll (v := v) (j := j) (ks := ks) (m := m.set e k v)
    simp only [setAll, List.foldl_cons, List.mem_cons] at h ⊢
    rw [h, SMap.get_set]
    by_cases h1 : j ∈ ks <;> by_cases h2 : j = k <;> simp [h1, h2]

/-! ### Allocation memory -/

theorem Mem.wf_cleanLines {m : Mem} {p n : Nat} (h : m.wf = true) : (m.cleanLines p n).wf = true := by
  rw [Mem.wf_iff] at *
  exact ⟨h.1, SMap.wf_clear h.2.1, h.2.2⟩

theorem Mem.wf_dropPages {m : Mem} {p n : Nat} (h : m.wf = true) : (m.dropPages p n).wf = true := by
  rw [Mem.wf_iff] at *
  obtain ⟨h1, h2, h3, h4, h5, h6, h7, h8, h9⟩ := h
  exact ⟨SMap.wf_clear h1, SMap.wf_clear h2, SMap.wf_clear h3, SMap.wf_clear h4, SMap.wf_clear h5, SMap.wf_clear h6,
    SMap.wf_clear h7, SMap.wf_clear h8, SMap.wf_clear h9⟩

theorem Mem.wf_gateMeres {m : Mem} (h : m.wf = true) : m.gateMeres.wf = true := by
  rw [Mem.wf_iff] at *
  exact ⟨h.1, h.2.1, h.2.2.1, h.2.2.2.1, h.2.2.2.2.1, h.2.2.2.2.2.1, rfl, rfl, h.2.2.2.2.2.2.2.2⟩

theorem Mem.wf_dropLines {m : Mem} {hf : Bool} {ls : List Nat} (h : m.wf = true) : (m.dropLines hf ls).wf = true := by
  rw [Mem.wf_iff] at *
  obtain ⟨h1, h2, h3, h4, h5, h6, h7, h8, h9⟩ := h
  exact ⟨h1, h2, h3, h4, h5, h6, h7, wf_setAll h8, h9⟩

theorem Mem.wf_forgetLpns {m : Mem} {ls : List Nat} (h : m.wf = true) : (m.forgetLpns ls).wf = true := h

theorem Mem.wf_dirty {m : Mem} {k : Nat} {b : Bool} (h : m.wf = true) :
    ({ m with dirty := m.dirty.set false k b } : Mem).wf = true := by
  rw [Mem.wf_iff] at *
  exact ⟨h.1, SMap.wf_set h.2.1, h.2.2⟩

theorem Mem.wf_poison {m : Mem} {k : Nat} {b : Bool} (h : m.wf = true) :
    ({ m with poison := m.poison.set false k b } : Mem).wf = true := by
  rw [Mem.wf_iff] at *
  exact ⟨h.1, h.2.1, h.2.2.1, h.2.2.2.1, SMap.wf_set h.2.2.2.2.1, h.2.2.2.2.2⟩

theorem Mem.wf_form {m : Mem} {k : Nat} {f : PageForm} (h : m.wf = true) :
    ({ m with form := m.form.set .fresh k f } : Mem).wf = true := by
  rw [Mem.wf_iff] at *
  exact ⟨h.1, h.2.1, h.2.2.1, h.2.2.2.1, h.2.2.2.2.1, SMap.wf_set h.2.2.2.2.2.1, h.2.2.2.2.2.2⟩

/-- A content page written at bind (R322). -/
theorem Mem.wf_content {m : Mem} {k j : Nat} {bs : List Byte} {f : PageForm} {b : Bool} (h : m.wf = true) :
    ({ m with bytes := m.bytes.setList 0 k bs, form := m.form.set .fresh j f, staged := m.staged.set false j b } : Mem).wf = true := by
  rw [Mem.wf_iff] at *
  exact ⟨SMap.wf_setList h.1, h.2.1, h.2.2.1, SMap.wf_set h.2.2.2.1, h.2.2.2.2.1, SMap.wf_set h.2.2.2.2.2.1, h.2.2.2.2.2.2⟩

theorem Mem.wf_pageClean {m : Mem} {p : Nat} (h : m.wf = true) : (m.pageClean p).wf = true := by
  unfold Mem.pageClean
  split
  · exact h
  split
  · exact h
  rw [Mem.wf_iff] at *
  exact ⟨h.1, h.2.1, SMap.wf_set (d := false) (k := p) (v := false) h.2.2.1, h.2.2.2⟩

/-! ### What does not touch allocation memory -/

@[simp] theorem Device.request_mem {d : Device} {now : Nat} {r : List Hop} {l : Nat} {j : Job} :
    (d.request now r l j).mem = d.mem := by
  unfold Device.request
  split <;> rfl

/-- What every step of a loop keeps, the loop keeps. -/
theorem forEach_keeps {β : Type} {P : Device → Prop} {f : Device → β → Device} (hf : ∀ d x, P d → P (f d x)) :
    ∀ {l : List β} {d : Device}, P d → P (forEach d l f)
  | [], _, h => h
  | x :: l, d, h => forEach_keeps (l := l) (d := f d x) hf (hf d x h)

@[simp] theorem Device.requests_mem {d : Device} {now : Nat} {rs : List (List Hop)} {l : Nat} {j : Job} :
    (d.requests now rs l j).mem = d.mem :=
  forEach_keeps (P := fun e => e.mem = d.mem) (fun _ _ h => by simpa using h) rfl

@[simp] theorem Device.countMiss_mem {d : Device} {now a b c : Nat} {p : Option Nat} : (d.countMiss now p a b c).mem = d.mem := by
  unfold Device.countMiss
  split <;> rfl

@[simp] theorem Device.logUnread_mem {d : Device} {now : Nat} {p c : Option Nat} {u : Unread} :
    (d.logUnread now p c u).mem = d.mem := by
  cases u <;> simp [Device.logUnread]

@[simp] theorem Device.modPeat_mem {d : Device} {f : Peat → Peat} : (d.modPeat f).mem = d.mem := rfl

/-! ### Bytes -/

/-- What `writeBytes` leaves: the bytes, the form of a page without PLAIT, with WRITE_BACK their marks, and nothing else
(R174, R175). -/
theorem Device.wf_writeBytes {d : Device} {a : Alloc} {b : Nat} {bs : List Byte} (h : d.mem.wf = true) :
    (d.writeBytes a b bs).mem.wf = true := by
  unfold Device.writeBytes
  split
  · exact h
  rw [Mem.wf_iff] at *
  obtain ⟨h1, h2, h3, h4, h5, h6, h7, h8, h9⟩ := h
  dsimp only
  split <;> split
  · exact ⟨SMap.wf_setList h1, wf_setAll h2, wf_setAll h3, h4, h5, h6, h7, h8, wf_setAll h9⟩
  · exact ⟨SMap.wf_setList h1, wf_setAll h2, wf_setAll h3, h4, h5, wf_setAll h6, h7, h8, wf_setAll h9⟩
  · exact ⟨SMap.wf_setList h1, h2, h3, h4, h5, h6, h7, h8, h9⟩
  · exact ⟨SMap.wf_setList h1, h2, h3, h4, h5, wf_setAll h6, h7, h8, h9⟩

theorem Device.writeBytes_bytes {d : Device} {a : Alloc} {b : Nat} {bs : List Byte} :
    (d.writeBytes a b bs).mem.bytes = d.mem.bytes.setList 0 (a.key b) bs := by
  unfold Device.writeBytes
  split
  · rename_i h
    rw [List.isEmpty_iff.mp h]
    rfl
  · dsimp only
    split <;> split <;> rfl

/-- The bytes written are the bytes read. -/
theorem Device.readBytes_writeBytes {d : Device} {a : Alloc} {b : Nat} {bs : List Byte} :
    (d.writeBytes a b bs).readBytes a b bs.length = bs := by
  simp only [Device.readBytes, Device.writeBytes_bytes, SMap.getList_setList]

/-- A byte outside the write reads as before. -/
theorem Device.writeBytes_other {d : Device} {a : Alloc} {b k : Nat} {bs : List Byte}
    (h : k < a.key b ∨ a.key b + bs.length ≤ k) : (d.writeBytes a b bs).mem.bytes.get 0 k = d.mem.bytes.get 0 k := by
  rw [Device.writeBytes_bytes, SMap.get_setList, dif_neg (by omega)]

/-! ### Pages go home -/

theorem Device.wf_setForm {d : Device} {p : Nat} {f : PageForm} (h : d.mem.wf = true) : (d.setForm p f).mem.wf = true :=
  Mem.wf_form h

theorem Device.wf_encodeHome {d : Device} {now p : Nat} {a : Alloc} (h : d.mem.wf = true) :
    (d.encodeHome now a p).mem.wf = true := by
  unfold Device.encodeHome
  split
  · rw [Device.logUnread_mem]; exact Mem.wf_poison h
  · exact Device.wf_setForm h

theorem Device.wf_pageHome {d : Device} {now p : Nat} {a : Alloc} (h : d.mem.wf = true) : (d.pageHome now a p).mem.wf = true := by
  have key : ∀ e : Device, e.mem.wf = true → ∀ b : Bool, ({ e.mem with
      dirtyPages := e.mem.dirtyPages.set false p false
      staged := e.mem.staged.set false p false
      poison := if b then e.mem.poison.set false p false else e.mem.poison
      dirty := e.mem.dirty.clear (p * 512) ((p + 1) * 512) } : Mem).wf = true := by
    intro e he b
    rw [Mem.wf_iff] at *
    obtain ⟨h1, h2, h3, h4, h5, h6⟩ := he
    refine ⟨h1, SMap.wf_clear h2, SMap.wf_set (d := false) (k := p) (v := false) h3,
      SMap.wf_set (d := false) (k := p) (v := false) h4, ?_, h6⟩
    cases b
    · exact h5
    · exact SMap.wf_set (d := false) (k := p) (v := false) h5
  unfold Device.pageHome
  refine key _ ?_ _
  split
  · exact Device.wf_setForm h
  split
  · exact Device.wf_encodeHome h
  · exact h

theorem Device.wf_takeFrames {d : Device} {i p n : Nat} (h : d.mem.wf = true) : (d.takeFrames i p n).mem.wf = true := by
  unfold Device.takeFrames
  split
  · exact h
  split
  · exact h
  rw [Mem.wf_iff] at *
  obtain ⟨h1, h2, h3, h4, h5, h6, h7, h8, h9⟩ := h
  exact ⟨h1, h2, h3, h4, h5, h6, wf_setAll h7, h8, h9⟩

theorem Device.wf_writeBack {d : Device} {now l : Nat} (h : d.mem.wf = true) : (d.writeBack now l).mem.wf = true := by
  unfold Device.writeBack
  split
  · exact h
  split
  · exact h
  dsimp only
  split
  · rw [Device.requests_mem]
    exact Mem.wf_pageClean (Mem.wf_cleanLines (Device.wf_encodeHome h))
  · rw [Device.request_mem]
    exact Mem.wf_pageClean (Mem.wf_dirty h)

theorem Device.wf_writeAllBack {d : Device} {now : Nat} (h : d.mem.wf = true) : (d.writeAllBack now).mem.wf = true := by
  have key : ∀ {l : List Nat} {f : Device → Nat → Device}, (∀ e p, e.mem.wf = true → (f e p).mem.wf = true) →
      (forEach d l f).mem.wf = true := fun hf => forEach_keeps (P := fun e => e.mem.wf = true) hf h
  unfold Device.writeAllBack
  have hk : ∀ e : Device, e.mem.wf = true → ({ e.mem with dirty := [], dirtyPages := e.mem.staged } : Mem).wf = true := by
    intro e he
    rw [Mem.wf_iff] at *
    exact ⟨he.1, rfl, he.2.2.2.1, he.2.2.2⟩
  refine hk _ (key fun e p he => ?_)
  split
  · split
    · exact Device.wf_encodeHome he
    · exact he
  · exact he

/-! ### Meres -/

theorem Device.wf_useLine {d : Device} {now l : Nat} {hf : Bool} (h : d.mem.wf = true) : (d.useLine now hf l).mem.wf = true := by
  unfold Device.useLine
  split
  · exact h
  split
  · exact h
  split
  · exact Device.wf_writeBack h
  · dsimp only
    split
    · exact h
    · exact Device.wf_writeBack (l := _) h

theorem Device.wf_useLines {d : Device} {now p : Nat} {hf : Bool} {ls : List Nat} (h : d.mem.wf = true) :
    (d.useLines now hf p ls).mem.wf = true :=
  forEach_keeps (P := fun e => e.mem.wf = true) (fun _ _ he => Device.wf_useLine he) h

theorem Device.wf_refit {d : Device} {now : Nat} {hf : Bool} (h : d.mem.wf = true) : (d.refit now hf).mem.wf = true := by
  have := forEach_keeps (P := fun e => e.mem.wf = true) (f := fun (e : Device) (x : Bool × Nat) => e.writeBack now x.2)
    (l := d.mem.cached.filter fun e => !(d.mem.cached.foldl (fun (k : List (Bool × Nat)) e =>
      if e.1 != hf || d.reservedLine e.2 || (d.cacheSets (halfNum hf) != 0
        && decide ((k.filter fun k => k.1 == hf && k.2 % d.cacheSets (halfNum hf) == e.2 % d.cacheSets (halfNum hf)
          && !d.reservedLine k.2).length < 16)) then k ++ [e] else k) []).contains e)
    (fun _ _ he => Device.wf_writeBack he) h
  exact this

theorem Device.wf_fillFrame {d : Device} {hf : Bool} {p : Nat} (h : d.mem.wf = true) : (d.fillFrame hf p).mem.wf = true := by
  rw [Mem.wf_iff] at *
  obtain ⟨h1, h2, h3, h4, h5, h6, h7, h8, h9⟩ := h
  exact ⟨h1, h2, h3, h4, h5, h6, h7, SMap.wf_set (d := false) (k := p) (v := true) h8, h9⟩

theorem Device.wf_startFill {d : Device} {now p l n : Nat} {w : Asker} {a : Alloc} (h : d.mem.wf = true) :
    (d.startFill now w a p l n).mem.wf = true := by
  unfold Device.startFill
  dsimp only
  rw [Device.countMiss_mem]
  refine forEach_keeps (P := fun e => e.mem.wf = true) (fun e x he => ?_) ?_
  · rw [Device.request_mem]; exact he
  · rw [Device.requests_mem]; exact h

theorem Device.wf_readLines {d : Device} {now p : Nat} {w : Asker} {ls : List Nat} (h : d.mem.wf = true) :
    (d.readLines now w p ls).mem.wf = true := by
  unfold Device.readLines
  split
  · exact h
  dsimp only
  split
  · exact Device.wf_useLines (by rw [Device.countMiss_mem]; exact Device.wf_useLines h)
  · refine forEach_keeps (P := fun e => e.mem.wf = true) (fun e x he => Device.wf_startFill he) ?_
    have : ∀ e : Device, e.mem.wf = true → ∀ fs, ({ e.mem with fills := fs } : Mem).wf = true := fun _ he _ => he
    exact this _ (by rw [Device.countMiss_mem]; exact Device.wf_useLines h) _

theorem Device.wf_endFill {d : Device} {now : Nat} {f : Fill} (h : d.mem.wf = true) : (d.endFill now f).mem.wf = true := by
  have h' : ({ d with mem := { d.mem with fills := d.mem.fills.erase f } } : Device).mem.wf = true := h
  unfold Device.endFill
  dsimp only
  split
  · exact Device.wf_fillFrame h'
  · exact Device.wf_useLines h'

theorem Device.wf_peatFilled {d : Device} {now l : Nat} (h : d.mem.wf = true) : (d.peatFilled now l).mem.wf = true :=
  forEach_keeps (P := fun e => e.mem.wf = true) (fun _ _ he => Device.wf_endFill he) h

theorem Device.wf_writtenLines {d : Device} {now port p : Nat} {w : Asker} {ls : List Nat} (h : d.mem.wf = true) :
    (d.writtenLines now w port p ls).mem.wf = true := by
  unfold Device.writtenLines
  split
  · exact h
  dsimp only
  split
  · exact Device.wf_useLines h
  · rw [Device.countMiss_mem, Device.requests_mem]; exact Device.wf_useLines h

/-- Poison noted or cleared on a logical page (R299). -/
theorem Device.wf_markLpn {d : Device} {l : Nat} {b : Bool} (h : d.mem.wf = true) : (d.markLpn l b).mem.wf = true := by
  unfold Device.markLpn
  dsimp only
  split
  · exact h
  · exact Mem.wf_poison h

/-! ### A core's pool -/

theorem Core.wf_pool_wrLe {k : Core} {a n x : Nat} (h : k.pool.wf 0 = true) : SMap.wf 0 (k.pool.wrLe a n x) = true :=
  SMap.wf_setList h

theorem reset_pool_wf : Core.init.pool.wf 0 = true := by decide

end Sys2Proof.Machine
end

