-- ==== Sys2Proof/Laws/PerInstr.lean ====
section
/-! SUPPORT. Per command: an instruction of a core is always well formed and is no host command, and only instructions
of a core have reserved fields (R55). -/

namespace Sys2Proof.Laws

/-- The statement of the family. -/
def Guarded.Statement (i : Instr) : Prop :=
  (i.coreGuard.isSome = true → i.wf = true ∧ i.hostOp = none) ∧ (i.reservedSet = true → i.coreGuard.isSome = true)

theorem Guarded.add (c : CoreId) (g : Guard) (o : RegOps) : Guarded.Statement (.add c g o) := ⟨fun _ => ⟨rfl, rfl⟩, fun _ => rfl⟩
theorem Guarded.sub (c : CoreId) (g : Guard) (o : RegOps) : Guarded.Statement (.sub c g o) := ⟨fun _ => ⟨rfl, rfl⟩, fun _ => rfl⟩
theorem Guarded.and_ (c : CoreId) (g : Guard) (o : RegOps) : Guarded.Statement (.and_ c g o) := ⟨fun _ => ⟨rfl, rfl⟩, fun _ => rfl⟩
theorem Guarded.or_ (c : CoreId) (g : Guard) (o : RegOps) : Guarded.Statement (.or_ c g o) := ⟨fun _ => ⟨rfl, rfl⟩, fun _ => rfl⟩
theorem Guarded.xor_ (c : CoreId) (g : Guard) (o : RegOps) : Guarded.Statement (.xor_ c g o) := ⟨fun _ => ⟨rfl, rfl⟩, fun _ => rfl⟩
theorem Guarded.shl (c : CoreId) (g : Guard) (o : RegOps) : Guarded.Statement (.shl c g o) := ⟨fun _ => ⟨rfl, rfl⟩, fun _ => rfl⟩
theorem Guarded.shr (c : CoreId) (g : Guard) (o : RegOps) : Guarded.Statement (.shr c g o) := ⟨fun _ => ⟨rfl, rfl⟩, fun _ => rfl⟩
theorem Guarded.sra (c : CoreId) (g : Guard) (o : RegOps) : Guarded.Statement (.sra c g o) := ⟨fun _ => ⟨rfl, rfl⟩, fun _ => rfl⟩
theorem Guarded.mul (c : CoreId) (g : Guard) (o : RegOps) : Guarded.Statement (.mul c g o) := ⟨fun _ => ⟨rfl, rfl⟩, fun _ => rfl⟩
theorem Guarded.mulh (c : CoreId) (g : Guard) (o : RegOps) : Guarded.Statement (.mulh c g o) := ⟨fun _ => ⟨rfl, rfl⟩, fun _ => rfl⟩
theorem Guarded.min_ (c : CoreId) (g : Guard) (o : RegOps) : Guarded.Statement (.min_ c g o) := ⟨fun _ => ⟨rfl, rfl⟩, fun _ => rfl⟩
theorem Guarded.max_ (c : CoreId) (g : Guard) (o : RegOps) : Guarded.Statement (.max_ c g o) := ⟨fun _ => ⟨rfl, rfl⟩, fun _ => rfl⟩
theorem Guarded.ceq (c : CoreId) (g : Guard) (o : RegOps) : Guarded.Statement (.ceq c g o) := ⟨fun _ => ⟨rfl, rfl⟩, fun _ => rfl⟩
theorem Guarded.cne (c : CoreId) (g : Guard) (o : RegOps) : Guarded.Statement (.cne c g o) := ⟨fun _ => ⟨rfl, rfl⟩, fun _ => rfl⟩
theorem Guarded.clt (c : CoreId) (g : Guard) (o : RegOps) : Guarded.Statement (.clt c g o) := ⟨fun _ => ⟨rfl, rfl⟩, fun _ => rfl⟩
theorem Guarded.cltu (c : CoreId) (g : Guard) (o : RegOps) : Guarded.Statement (.cltu c g o) := ⟨fun _ => ⟨rfl, rfl⟩, fun _ => rfl⟩
theorem Guarded.cge (c : CoreId) (g : Guard) (o : RegOps) : Guarded.Statement (.cge c g o) := ⟨fun _ => ⟨rfl, rfl⟩, fun _ => rfl⟩
theorem Guarded.cgeu (c : CoreId) (g : Guard) (o : RegOps) : Guarded.Statement (.cgeu c g o) := ⟨fun _ => ⟨rfl, rfl⟩, fun _ => rfl⟩
theorem Guarded.pand (c : CoreId) (g : Guard) (o : RegOps) : Guarded.Statement (.pand c g o) := ⟨fun _ => ⟨rfl, rfl⟩, fun _ => rfl⟩
theorem Guarded.por (c : CoreId) (g : Guard) (o : RegOps) : Guarded.Statement (.por c g o) := ⟨fun _ => ⟨rfl, rfl⟩, fun _ => rfl⟩
theorem Guarded.pnot (c : CoreId) (g : Guard) (o : RegOps) : Guarded.Statement (.pnot c g o) := ⟨fun _ => ⟨rfl, rfl⟩, fun _ => rfl⟩
theorem Guarded.addi (c : CoreId) (g : Guard) (o : ImmOps) : Guarded.Statement (.addi c g o) := ⟨fun _ => ⟨rfl, rfl⟩, fun _ => rfl⟩
theorem Guarded.andi (c : CoreId) (g : Guard) (o : ImmOps) : Guarded.Statement (.andi c g o) := ⟨fun _ => ⟨rfl, rfl⟩, fun _ => rfl⟩
theorem Guarded.ori (c : CoreId) (g : Guard) (o : ImmOps) : Guarded.Statement (.ori c g o) := ⟨fun _ => ⟨rfl, rfl⟩, fun _ => rfl⟩
theorem Guarded.xori (c : CoreId) (g : Guard) (o : ImmOps) : Guarded.Statement (.xori c g o) := ⟨fun _ => ⟨rfl, rfl⟩, fun _ => rfl⟩
theorem Guarded.shli (c : CoreId) (g : Guard) (o : ImmOps) : Guarded.Statement (.shli c g o) := ⟨fun _ => ⟨rfl, rfl⟩, fun _ => rfl⟩
theorem Guarded.shri (c : CoreId) (g : Guard) (o : ImmOps) : Guarded.Statement (.shri c g o) := ⟨fun _ => ⟨rfl, rfl⟩, fun _ => rfl⟩
theorem Guarded.srai (c : CoreId) (g : Guard) (o : ImmOps) : Guarded.Statement (.srai c g o) := ⟨fun _ => ⟨rfl, rfl⟩, fun _ => rfl⟩
theorem Guarded.clti (c : CoreId) (g : Guard) (o : ImmOps) : Guarded.Statement (.clti c g o) := ⟨fun _ => ⟨rfl, rfl⟩, fun _ => rfl⟩
theorem Guarded.movl (c : CoreId) (g : Guard) (o : WideOps) : Guarded.Statement (.movl c g o) := ⟨fun _ => ⟨rfl, rfl⟩, fun _ => rfl⟩
theorem Guarded.movh (c : CoreId) (g : Guard) (o : WideOps) : Guarded.Statement (.movh c g o) := ⟨fun _ => ⟨rfl, rfl⟩, fun _ => rfl⟩
theorem Guarded.br (c : CoreId) (g : Guard) (off : BitVec 22) : Guarded.Statement (.br c g off) := ⟨fun _ => ⟨rfl, rfl⟩, fun _ => rfl⟩
theorem Guarded.call (c : CoreId) (g : Guard) (off : BitVec 22) : Guarded.Statement (.call c g off) := ⟨fun _ => ⟨rfl, rfl⟩, fun _ => rfl⟩
theorem Guarded.jr (c : CoreId) (g : Guard) (o : JrOps) : Guarded.Statement (.jr c g o) := ⟨fun _ => ⟨rfl, rfl⟩, fun _ => rfl⟩
theorem Guarded.loop (c : CoreId) (g : Guard) (o : LoopOps) : Guarded.Statement (.loop c g o) := ⟨fun _ => ⟨rfl, rfl⟩, fun _ => rfl⟩
theorem Guarded.ldw (c : CoreId) (g : Guard) (o : PoolOps) : Guarded.Statement (.ldw c g o) := ⟨fun _ => ⟨rfl, rfl⟩, fun _ => rfl⟩
theorem Guarded.ldh (c : CoreId) (g : Guard) (o : PoolOps) : Guarded.Statement (.ldh c g o) := ⟨fun _ => ⟨rfl, rfl⟩, fun _ => rfl⟩
theorem Guarded.ldb (c : CoreId) (g : Guard) (o : PoolOps) : Guarded.Statement (.ldb c g o) := ⟨fun _ => ⟨rfl, rfl⟩, fun _ => rfl⟩
theorem Guarded.stw (c : CoreId) (g : Guard) (o : PoolOps) : Guarded.Statement (.stw c g o) := ⟨fun _ => ⟨rfl, rfl⟩, fun _ => rfl⟩
theorem Guarded.sth (c : CoreId) (g : Guard) (o : PoolOps) : Guarded.Statement (.sth c g o) := ⟨fun _ => ⟨rfl, rfl⟩, fun _ => rfl⟩
theorem Guarded.stb (c : CoreId) (g : Guard) (o : PoolOps) : Guarded.Statement (.stb c g o) := ⟨fun _ => ⟨rfl, rfl⟩, fun _ => rfl⟩
theorem Guarded.ldv (c : CoreId) (g : Guard) (o : WidePoolOps) : Guarded.Statement (.ldv c g o) := ⟨fun _ => ⟨rfl, rfl⟩, fun _ => rfl⟩
theorem Guarded.stv (c : CoreId) (g : Guard) (o : WidePoolOps) : Guarded.Statement (.stv c g o) := ⟨fun _ => ⟨rfl, rfl⟩, fun _ => rfl⟩
theorem Guarded.ldd (c : CoreId) (g : Guard) (o : WidePoolOps) : Guarded.Statement (.ldd c g o) := ⟨fun _ => ⟨rfl, rfl⟩, fun _ => rfl⟩
theorem Guarded.std (c : CoreId) (g : Guard) (o : WidePoolOps) : Guarded.Statement (.std c g o) := ⟨fun _ => ⟨rfl, rfl⟩, fun _ => rfl⟩
theorem Guarded.vadd (c : CoreId) (g : Guard) (o : VecOps) : Guarded.Statement (.vadd c g o) := ⟨fun _ => ⟨rfl, rfl⟩, fun _ => rfl⟩
theorem Guarded.vsub (c : CoreId) (g : Guard) (o : VecOps) : Guarded.Statement (.vsub c g o) := ⟨fun _ => ⟨rfl, rfl⟩, fun _ => rfl⟩
theorem Guarded.vmul (c : CoreId) (g : Guard) (o : VecOps) : Guarded.Statement (.vmul c g o) := ⟨fun _ => ⟨rfl, rfl⟩, fun _ => rfl⟩
theorem Guarded.vmax (c : CoreId) (g : Guard) (o : VecOps) : Guarded.Statement (.vmax c g o) := ⟨fun _ => ⟨rfl, rfl⟩, fun _ => rfl⟩
theorem Guarded.vmin (c : CoreId) (g : Guard) (o : VecOps) : Guarded.Statement (.vmin c g o) := ⟨fun _ => ⟨rfl, rfl⟩, fun _ => rfl⟩
theorem Guarded.vabs (c : CoreId) (g : Guard) (o : VecOps) : Guarded.Statement (.vabs c g o) := ⟨fun _ => ⟨rfl, rfl⟩, fun _ => rfl⟩
theorem Guarded.vneg (c : CoreId) (g : Guard) (o : VecOps) : Guarded.Statement (.vneg c g o) := ⟨fun _ => ⟨rfl, rfl⟩, fun _ => rfl⟩
theorem Guarded.vand (c : CoreId) (g : Guard) (o : VecOps) : Guarded.Statement (.vand c g o) := ⟨fun _ => ⟨rfl, rfl⟩, fun _ => rfl⟩
theorem Guarded.vor (c : CoreId) (g : Guard) (o : VecOps) : Guarded.Statement (.vor c g o) := ⟨fun _ => ⟨rfl, rfl⟩, fun _ => rfl⟩
theorem Guarded.vxor (c : CoreId) (g : Guard) (o : VecOps) : Guarded.Statement (.vxor c g o) := ⟨fun _ => ⟨rfl, rfl⟩, fun _ => rfl⟩
theorem Guarded.vshl (c : CoreId) (g : Guard) (o : VecOps) : Guarded.Statement (.vshl c g o) := ⟨fun _ => ⟨rfl, rfl⟩, fun _ => rfl⟩
theorem Guarded.vshr (c : CoreId) (g : Guard) (o : VecOps) : Guarded.Statement (.vshr c g o) := ⟨fun _ => ⟨rfl, rfl⟩, fun _ => rfl⟩
theorem Guarded.vsra (c : CoreId) (g : Guard) (o : VecOps) : Guarded.Statement (.vsra c g o) := ⟨fun _ => ⟨rfl, rfl⟩, fun _ => rfl⟩
theorem Guarded.vfma (c : CoreId) (g : Guard) (o : VecOps) : Guarded.Statement (.vfma c g o) := ⟨fun _ => ⟨rfl, rfl⟩, fun _ => rfl⟩
theorem Guarded.vrecip (c : CoreId) (g : Guard) (o : VecOps) : Guarded.Statement (.vrecip c g o) := ⟨fun _ => ⟨rfl, rfl⟩, fun _ => rfl⟩
theorem Guarded.vrsqrt (c : CoreId) (g : Guard) (o : VecOps) : Guarded.Statement (.vrsqrt c g o) := ⟨fun _ => ⟨rfl, rfl⟩, fun _ => rfl⟩
theorem Guarded.vexp2 (c : CoreId) (g : Guard) (o : VecOps) : Guarded.Statement (.vexp2 c g o) := ⟨fun _ => ⟨rfl, rfl⟩, fun _ => rfl⟩
theorem Guarded.vredsum (c : CoreId) (g : Guard) (o : VecOps) : Guarded.Statement (.vredsum c g o) := ⟨fun _ => ⟨rfl, rfl⟩, fun _ => rfl⟩
theorem Guarded.vredmax (c : CoreId) (g : Guard) (o : VecOps) : Guarded.Statement (.vredmax c g o) := ⟨fun _ => ⟨rfl, rfl⟩, fun _ => rfl⟩
theorem Guarded.vcvt (c : CoreId) (g : Guard) (o : VecOps) : Guarded.Statement (.vcvt c g o) := ⟨fun _ => ⟨rfl, rfl⟩, fun _ => rfl⟩
theorem Guarded.vbcast (c : CoreId) (g : Guard) (o : VecOps) : Guarded.Statement (.vbcast c g o) := ⟨fun _ => ⟨rfl, rfl⟩, fun _ => rfl⟩
theorem Guarded.vgetl (c : CoreId) (g : Guard) (o : VecOps) : Guarded.Statement (.vgetl c g o) := ⟨fun _ => ⟨rfl, rfl⟩, fun _ => rfl⟩
theorem Guarded.vaccrd (c : CoreId) (g : Guard) (o : VecOps) : Guarded.Statement (.vaccrd c g o) := ⟨fun _ => ⟨rfl, rfl⟩, fun _ => rfl⟩
theorem Guarded.vaccwr (c : CoreId) (g : Guard) (o : VecOps) : Guarded.Statement (.vaccwr c g o) := ⟨fun _ => ⟨rfl, rfl⟩, fun _ => rfl⟩
theorem Guarded.mxrun (c : CoreId) (g : Guard) (o : MatOps) : Guarded.Statement (.mxrun c g o) := ⟨fun _ => ⟨rfl, rfl⟩, fun _ => rfl⟩
theorem Guarded.mxwait (c : CoreId) (g : Guard) (o : MatOps) : Guarded.Statement (.mxwait c g o) := ⟨fun _ => ⟨rfl, rfl⟩, fun _ => rfl⟩
theorem Guarded.mxsat (c : CoreId) (g : Guard) (o : MatOps) : Guarded.Statement (.mxsat c g o) := ⟨fun _ => ⟨rfl, rfl⟩, fun _ => rfl⟩
theorem Guarded.mxsatclr (c : CoreId) (g : Guard) (o : MatOps) : Guarded.Statement (.mxsatclr c g o) := ⟨fun _ => ⟨rfl, rfl⟩, fun _ => rfl⟩
theorem Guarded.send (c : CoreId) (g : Guard) (o : SendOps) : Guarded.Statement (.send c g o) := ⟨fun _ => ⟨rfl, rfl⟩, fun _ => rfl⟩
theorem Guarded.post (c : CoreId) (g : Guard) (o : PostOps) : Guarded.Statement (.post c g o) := ⟨fun _ => ⟨rfl, rfl⟩, fun _ => rfl⟩
theorem Guarded.mfree (c : CoreId) (g : Guard) (o : ChanOps) : Guarded.Statement (.mfree c g o) := ⟨fun _ => ⟨rfl, rfl⟩, fun _ => rfl⟩
theorem Guarded.mptr (c : CoreId) (g : Guard) (o : ChanOps) : Guarded.Statement (.mptr c g o) := ⟨fun _ => ⟨rfl, rfl⟩, fun _ => rfl⟩
theorem Guarded.ksig (c : CoreId) (g : Guard) (o : KnotOps) : Guarded.Statement (.ksig c g o) := ⟨fun _ => ⟨rfl, rfl⟩, fun _ => rfl⟩
theorem Guarded.kwait (c : CoreId) (g : Guard) (o : KnotOps) : Guarded.Statement (.kwait c g o) := ⟨fun _ => ⟨rfl, rfl⟩, fun _ => rfl⟩
theorem Guarded.kinit (c : CoreId) (g : Guard) (o : KnotOps) : Guarded.Statement (.kinit c g o) := ⟨fun _ => ⟨rfl, rfl⟩, fun _ => rfl⟩
theorem Guarded.karm (c : CoreId) (g : Guard) (o : KnotOps) : Guarded.Statement (.karm c g o) := ⟨fun _ => ⟨rfl, rfl⟩, fun _ => rfl⟩
theorem Guarded.krd (c : CoreId) (g : Guard) (o : KnotOps) : Guarded.Statement (.krd c g o) := ⟨fun _ => ⟨rfl, rfl⟩, fun _ => rfl⟩
theorem Guarded.pmq (c : CoreId) (g : Guard) (o : MoverOps) : Guarded.Statement (.pmq c g o) := ⟨fun _ => ⟨rfl, rfl⟩, fun _ => rfl⟩
theorem Guarded.pmwait (c : CoreId) (g : Guard) (o : MoverOps) : Guarded.Statement (.pmwait c g o) := ⟨fun _ => ⟨rfl, rfl⟩, fun _ => rfl⟩
theorem Guarded.kvwalk (c : CoreId) (g : Guard) (o : MoverOps) : Guarded.Statement (.kvwalk c g o) := ⟨fun _ => ⟨rfl, rfl⟩, fun _ => rfl⟩
theorem Guarded.nop (c : CoreId) (g : Guard) (o : SysOps) : Guarded.Statement (.nop c g o) := ⟨fun _ => ⟨rfl, rfl⟩, fun _ => rfl⟩
theorem Guarded.sysrd (c : CoreId) (g : Guard) (o : SysOps) : Guarded.Statement (.sysrd c g o) := ⟨fun _ => ⟨rfl, rfl⟩, fun _ => rfl⟩
theorem Guarded.syswr (c : CoreId) (g : Guard) (o : SysOps) : Guarded.Statement (.syswr c g o) := ⟨fun _ => ⟨rfl, rfl⟩, fun _ => rfl⟩
theorem Guarded.fence (c : CoreId) (g : Guard) (o : SysOps) : Guarded.Statement (.fence c g o) := ⟨fun _ => ⟨rfl, rfl⟩, fun _ => rfl⟩
theorem Guarded.halt (c : CoreId) (g : Guard) (o : SysOps) : Guarded.Statement (.halt c g o) := ⟨fun _ => ⟨rfl, rfl⟩, fun _ => rfl⟩
theorem Guarded.mxrunIterationDone (c : CoreId) : Guarded.Statement (.mxrunIterationDone c) := ⟨nofun, nofun⟩
theorem Guarded.mxrunComplete (c : CoreId) : Guarded.Statement (.mxrunComplete c) := ⟨nofun, nofun⟩
theorem Guarded.msgArrive (src dst : CoreId) : Guarded.Statement (.msgArrive src dst) := ⟨nofun, nofun⟩
theorem Guarded.knotOpApply (idx : Nat) : Guarded.Statement (.knotOpApply idx) := ⟨nofun, nofun⟩
theorem Guarded.pmEntryStart (c : CoreId) : Guarded.Statement (.pmEntryStart c) := ⟨nofun, nofun⟩
theorem Guarded.pmEntryComplete (c : CoreId) (idx : BitVec 4) : Guarded.Statement (.pmEntryComplete c idx) := ⟨nofun, nofun⟩
theorem Guarded.scheduleRecordIssue (c : CoreId) : Guarded.Statement (.scheduleRecordIssue c) := ⟨nofun, nofun⟩
theorem Guarded.cmdPortWrite (ws : List Word) (flt : TlpFault) : Guarded.Statement (.cmdPortWrite ws flt) := ⟨nofun, nofun⟩
theorem Guarded.portResyncCmd (v : Word) : Guarded.Statement (.portResyncCmd v) := ⟨nofun, nofun⟩
theorem Guarded.replyRewind (v : Word) : Guarded.Statement (.replyRewind v) := ⟨nofun, nofun⟩
theorem Guarded.replyPortRead (n : BitVec 4) : Guarded.Statement (.replyPortRead n) := ⟨nofun, nofun⟩
theorem Guarded.intCauseWrite (v : Word) : Guarded.Statement (.intCauseWrite v) := ⟨nofun, nofun⟩
theorem Guarded.intMaskWrite (v : Word) : Guarded.Statement (.intMaskWrite v) := ⟨nofun, nofun⟩
theorem Guarded.xspiModeSet (v : Word) : Guarded.Statement (.xspiModeSet v) := ⟨nofun, nofun⟩
theorem Guarded.regWriteOther (reg : HostReg) (wide : Bool) (v : Word) : Guarded.Statement (.regWriteOther reg wide v) := ⟨nofun, nofun⟩
theorem Guarded.perstReset (flr : Bool) : Guarded.Statement (.perstReset flr) := ⟨nofun, nofun⟩
theorem Guarded.xspiCsWake (lowNs : Nat) : Guarded.Statement (.xspiCsWake lowNs) := ⟨nofun, nofun⟩
theorem Guarded.freeZeroDone (slot : BitVec 16) : Guarded.Statement (.freeZeroDone slot) := ⟨nofun, nofun⟩
theorem Guarded.flushDone (slot : BitVec 16) : Guarded.Statement (.flushDone slot) := ⟨nofun, nofun⟩
theorem Guarded.migrateDone (slot : BitVec 16) : Guarded.Statement (.migrateDone slot) := ⟨nofun, nofun⟩
theorem Guarded.itemDispatch (p : PartId) : Guarded.Statement (.itemDispatch p) := ⟨nofun, nofun⟩
theorem Guarded.itemComplete (p : PartId) : Guarded.Statement (.itemComplete p) := ⟨nofun, nofun⟩
theorem Guarded.programWindowEnter (ch : FlashCh) : Guarded.Statement (.programWindowEnter ch) := ⟨nofun, nofun⟩
theorem Guarded.programWindowOpen (ch : FlashCh) : Guarded.Statement (.programWindowOpen ch) := ⟨nofun, nofun⟩
theorem Guarded.programWindowClose (ch : FlashCh) : Guarded.Statement (.programWindowClose ch) := ⟨nofun, nofun⟩
theorem Guarded.flashOpIssue (ch : FlashCh) : Guarded.Statement (.flashOpIssue ch) := ⟨nofun, nofun⟩
theorem Guarded.arbiterGrant (site : Site) (inst : Nat) : Guarded.Statement (.arbiterGrant site inst) := ⟨nofun, nofun⟩
theorem Guarded.requestPast (site : Site) (inst port : Nat) : Guarded.Statement (.requestPast site inst port) := ⟨nofun, nofun⟩
theorem Guarded.holdCut (site : Site) (inst : Nat) : Guarded.Statement (.holdCut site inst) := ⟨nofun, nofun⟩
theorem Guarded.replicaSample (at_ : MonitorId) (low : Bool) : Guarded.Statement (.replicaSample at_ low) := ⟨nofun, nofun⟩
theorem Guarded.shortfallAtMax (dom : Dom) : Guarded.Statement (.shortfallAtMax dom) := ⟨nofun, nofun⟩
theorem Guarded.domainPaceAck (dom : Dom) : Guarded.Statement (.domainPaceAck dom) := ⟨nofun, nofun⟩
theorem Guarded.paceAckTimeout (r : Rail) : Guarded.Statement (.paceAckTimeout r) := ⟨nofun, nofun⟩
theorem Guarded.avsSettled (r : Rail) : Guarded.Statement (.avsSettled r) := ⟨nofun, nofun⟩
theorem Guarded.paceApply (r : Rail) : Guarded.Statement (.paceApply r) := ⟨nofun, nofun⟩
theorem Guarded.avsSettleTimeout (r : Rail) : Guarded.Statement (.avsSettleTimeout r) := ⟨nofun, nofun⟩
theorem Guarded.avsFrameResponse (r : Rail) (crcOk : Bool) : Guarded.Statement (.avsFrameResponse r crcOk) := ⟨nofun, nofun⟩
theorem Guarded.thermalSample (hub half0 half1 : List Int) : Guarded.Statement (.thermalSample hub half0 half1) := ⟨nofun, nofun⟩
theorem Guarded.thermalCapFall (die : Die) : Guarded.Statement (.thermalCapFall die) := ⟨nofun, nofun⟩
theorem Guarded.thermalCapRise (die : Die) : Guarded.Statement (.thermalCapRise die) := ⟨nofun, nofun⟩
theorem Guarded.watchdogExpire (p : PartId) : Guarded.Statement (.watchdogExpire p) := ⟨nofun, nofun⟩
theorem Guarded.computeResetComplete (p : PartId) (failed : List SlotFail) : Guarded.Statement (.computeResetComplete p failed) := ⟨nofun, nofun⟩
theorem Guarded.hubFault (unit cause : BitVec 32) : Guarded.Statement (.hubFault unit cause) := ⟨nofun, nofun⟩
theorem Guarded.heartbeat (half : Half) : Guarded.Statement (.heartbeat half) := ⟨nofun, nofun⟩
theorem Guarded.stewardLost (half : Half) (cause : BitVec 2) : Guarded.Statement (.stewardLost half cause) := ⟨nofun, nofun⟩
theorem Guarded.leaseRenew (half : Half) : Guarded.Statement (.leaseRenew half) := ⟨nofun, nofun⟩
theorem Guarded.leaseAcquire (half : Half) : Guarded.Statement (.leaseAcquire half) := ⟨nofun, nofun⟩
theorem Guarded.stewardControlWrite (half : Half) (unit : FabricUnit) (epoch : BitVec 48) : Guarded.Statement (.stewardControlWrite half unit epoch) := ⟨nofun, nofun⟩
theorem Guarded.stewardRestartTest (half : Half) (pass : Bool) : Guarded.Statement (.stewardRestartTest half pass) := ⟨nofun, nofun⟩
theorem Guarded.bridgePacketFail (side : Half) (lane : BitVec 8) (retryFailed : Bool) : Guarded.Statement (.bridgePacketFail side lane retryFailed) := ⟨nofun, nofun⟩
theorem Guarded.spareLaneTrained (side : Half) : Guarded.Statement (.spareLaneTrained side) := ⟨nofun, nofun⟩
theorem Guarded.knotSlotParity (index : BitVec 12) : Guarded.Statement (.knotSlotParity index) := ⟨nofun, nofun⟩
theorem Guarded.sramRowError (arr : SramArray) (unit row : Nat) (uncorrectable : Bool) (held : List Nat) (bad : List (Nat × BitVec 22)) : Guarded.Statement (.sramRowError arr unit row uncorrectable held bad) := ⟨nofun, nofun⟩
theorem Guarded.scanStart (unit : Half) : Guarded.Statement (.scanStart unit) := ⟨nofun, nofun⟩
theorem Guarded.scanComplete (unit : Half) : Guarded.Statement (.scanComplete unit) := ⟨nofun, nofun⟩
theorem Guarded.digestEpoch (half0 half1 : Option Word) : Guarded.Statement (.digestEpoch half0 half1) := ⟨nofun, nofun⟩
theorem Guarded.sameBankRefresh (sc : Subch) (bank : BitVec 2) : Guarded.Statement (.sameBankRefresh sc bank) := ⟨nofun, nofun⟩
theorem Guarded.zqCalibration (half : Half) (cs : RankSet) : Guarded.Statement (.zqCalibration half cs) := ⟨nofun, nofun⟩
theorem Guarded.mr4Poll (sc : Subch) (cs : RankSet) (interval : Nat) : Guarded.Statement (.mr4Poll sc cs interval) := ⟨nofun, nofun⟩
theorem Guarded.neighbourRefreshIssue (sc : Subch) : Guarded.Statement (.neighbourRefreshIssue sc) := ⟨nofun, nofun⟩
theorem Guarded.skewWindow (half : Half) (bursts : List Nat) : Guarded.Statement (.skewWindow half bursts) := ⟨nofun, nofun⟩
theorem Guarded.dramBurstRead (half : Half) (page : BitVec 22) (burst : BitVec 10) (ecc : Ecc) (use : PageUse) : Guarded.Statement (.dramBurstRead half page burst ecc use) := ⟨nofun, nofun⟩
theorem Guarded.migrationPageCopied (half : Half) (ecc : Ecc) (use : PageUse) : Guarded.Statement (.migrationPageCopied half ecc use) := ⟨nofun, nofun⟩
theorem Guarded.patrolRead (half : Half) (cs : RankSet) : Guarded.Statement (.patrolRead half cs) := ⟨nofun, nofun⟩
theorem Guarded.parityAlert (sc : Subch) : Guarded.Statement (.parityAlert sc) := ⟨nofun, nofun⟩
theorem Guarded.replayFail (sc : Subch) (cs : RankSet) : Guarded.Statement (.replayFail sc cs) := ⟨nofun, nofun⟩
theorem Guarded.freqChangeDone (alerts : List (Subch × RankSet)) : Guarded.Statement (.freqChangeDone alerts) := ⟨nofun, nofun⟩
theorem Guarded.mereFillDone (half : Half) (line : Nat) : Guarded.Statement (.mereFillDone half line) := ⟨nofun, nofun⟩
theorem Guarded.peatReadDone (lpn : BitVec 32) (bitErrors : List Nat) : Guarded.Statement (.peatReadDone lpn bitErrors) := ⟨nofun, nofun⟩
theorem Guarded.peatReread (lpn : BitVec 32) (ok : Bool) : Guarded.Statement (.peatReread lpn ok) := ⟨nofun, nofun⟩
theorem Guarded.peatProgramDone (ch : FlashCh) (ok : Bool) : Guarded.Statement (.peatProgramDone ch ok) := ⟨nofun, nofun⟩
theorem Guarded.peatEraseDone (ch : FlashCh) (ok : Bool) : Guarded.Statement (.peatEraseDone ch ok) := ⟨nofun, nofun⟩
theorem Guarded.blockEraseStart (block : BitVec 32) : Guarded.Statement (.blockEraseStart block) := ⟨nofun, nofun⟩
theorem Guarded.peatMount (read : MountRead) : Guarded.Statement (.peatMount read) := ⟨nofun, nofun⟩
theorem Guarded.firstBootMount (badBlocks : List (BitVec 32)) (rejected : List (FlashCh × BitVec 3)) : Guarded.Statement (.firstBootMount badBlocks rejected) := ⟨nofun, nofun⟩
theorem Guarded.csiFrameStart (port : CsiPort) (vc : BitVec 4) (sensorFrame : BitVec 16) : Guarded.Statement (.csiFrameStart port vc sensorFrame) := ⟨nofun, nofun⟩
theorem Guarded.csiLine (port : CsiPort) (vc : BitVec 4) (dt : BitVec 6) (payload : List Byte) (check : LineCheck) (ovr : Overflow) : Guarded.Statement (.csiLine port vc dt payload check ovr) := ⟨nofun, nofun⟩
theorem Guarded.csiFrameEnd (port : CsiPort) (vc : BitVec 4) : Guarded.Statement (.csiFrameEnd port vc) := ⟨nofun, nofun⟩
theorem Guarded.csiPacketGap (port : CsiPort) : Guarded.Statement (.csiPacketGap port) := ⟨nofun, nofun⟩
theorem Guarded.csiLinkTimeout (port : CsiPort) : Guarded.Statement (.csiLinkTimeout port) := ⟨nofun, nofun⟩
theorem Guarded.pipeFrameComplete (pipe : BitVec 2) : Guarded.Statement (.pipeFrameComplete pipe) := ⟨nofun, nofun⟩
theorem Guarded.pdmPinActive (pin : BitVec 3) : Guarded.Statement (.pdmPinActive pin) := ⟨nofun, nofun⟩
theorem Guarded.pdmPinInactive (pin : BitVec 3) : Guarded.Statement (.pdmPinInactive pin) := ⟨nofun, nofun⟩
theorem Guarded.audioBlockComplete (lp : List (List (BitVec 16))) (hq : List (List (BitVec 24))) : Guarded.Statement (.audioBlockComplete lp hq) := ⟨nofun, nofun⟩
theorem Guarded.motionWatchFrame (watch : Bool) (lineLen bits : Nat) (samples : List (List Nat)) : Guarded.Statement (.motionWatchFrame watch lineLen bits samples) := ⟨nofun, nofun⟩
theorem Guarded.pwrMainsChange (level : Bool) : Guarded.Statement (.pwrMainsChange level) := ⟨nofun, nofun⟩
theorem Guarded.pwrBattAccept (level : Bool) : Guarded.Statement (.pwrBattAccept level) := ⟨nofun, nofun⟩
theorem Guarded.porstRelease (bootSel bank0Ok bank1Ok : Bool) : Guarded.Statement (.porstRelease bootSel bank0Ok bank1Ok) := ⟨nofun, nofun⟩
theorem Guarded.trainingComplete (popOk : Bool) (kit : DramKit) (last : RankSet) (results : List RankResult) (lowFails : List (Half × RankSet)) : Guarded.Statement (.trainingComplete popOk kit last results lowFails) := ⟨nofun, nofun⟩
theorem Guarded.entropyStartupDone (pass : Bool) : Guarded.Statement (.entropyStartupDone pass) := ⟨nofun, nofun⟩
theorem Guarded.hotJoinRequest (bus : Half) : Guarded.Statement (.hotJoinRequest bus) := ⟨nofun, nofun⟩
theorem Guarded.entdaa (bus : Half) (targets : List (BitVec 48)) : Guarded.Statement (.entdaa bus targets) := ⟨nofun, nofun⟩
theorem Guarded.i3cRetry (bus : Half) (targets : List (BitVec 48)) : Guarded.Statement (.i3cRetry bus targets) := ⟨nofun, nofun⟩
theorem Guarded.illegalInstr (c : CoreId) (w : BitVec 32) : Guarded.Statement (.illegalInstr c w) := ⟨nofun, nofun⟩
theorem Guarded.packetCheck : Guarded.Statement .packetCheck := ⟨nofun, nofun⟩
theorem Guarded.eventPortRead : Guarded.Statement .eventPortRead := ⟨nofun, nofun⟩
theorem Guarded.eventAvailRead : Guarded.Statement .eventAvailRead := ⟨nofun, nofun⟩
theorem Guarded.timeReadLow : Guarded.Statement .timeReadLow := ⟨nofun, nofun⟩
theorem Guarded.perstDeassert : Guarded.Statement .perstDeassert := ⟨nofun, nofun⟩
theorem Guarded.echo : Guarded.Statement .echo := ⟨nofun, nofun⟩
theorem Guarded.identify : Guarded.Statement .identify := ⟨nofun, nofun⟩
theorem Guarded.getStatus : Guarded.Statement .getStatus := ⟨nofun, nofun⟩
theorem Guarded.tenantOpen : Guarded.Statement .tenantOpen := ⟨nofun, nofun⟩
theorem Guarded.tenantClose : Guarded.Statement .tenantClose := ⟨nofun, nofun⟩
theorem Guarded.contextOpen : Guarded.Statement .contextOpen := ⟨nofun, nofun⟩
theorem Guarded.contextClose : Guarded.Statement .contextClose := ⟨nofun, nofun⟩
theorem Guarded.alloc : Guarded.Statement .alloc := ⟨nofun, nofun⟩
theorem Guarded.free : Guarded.Statement .free := ⟨nofun, nofun⟩
theorem Guarded.put : Guarded.Statement .put := ⟨nofun, nofun⟩
theorem Guarded.get : Guarded.Statement .get := ⟨nofun, nofun⟩
theorem Guarded.flush : Guarded.Statement .flush := ⟨nofun, nofun⟩
theorem Guarded.migrate : Guarded.Statement .migrate := ⟨nofun, nofun⟩
theorem Guarded.weaveLoad : Guarded.Statement .weaveLoad := ⟨nofun, nofun⟩
theorem Guarded.weaveBind : Guarded.Statement .weaveBind := ⟨nofun, nofun⟩
theorem Guarded.weaveDrop : Guarded.Statement .weaveDrop := ⟨nofun, nofun⟩
theorem Guarded.partitionSet : Guarded.Statement .partitionSet := ⟨nofun, nofun⟩
theorem Guarded.run : Guarded.Statement .run := ⟨nofun, nofun⟩
theorem Guarded.queryDue : Guarded.Statement .queryDue := ⟨nofun, nofun⟩
theorem Guarded.cancel : Guarded.Statement .cancel := ⟨nofun, nofun⟩
theorem Guarded.decide : Guarded.Statement .decide := ⟨nofun, nofun⟩
theorem Guarded.streamOpen : Guarded.Statement .streamOpen := ⟨nofun, nofun⟩
theorem Guarded.streamStep : Guarded.Statement .streamStep := ⟨nofun, nofun⟩
theorem Guarded.streamClose : Guarded.Statement .streamClose := ⟨nofun, nofun⟩
theorem Guarded.seqOpen : Guarded.Statement .seqOpen := ⟨nofun, nofun⟩
theorem Guarded.seqFeed : Guarded.Statement .seqFeed := ⟨nofun, nofun⟩
theorem Guarded.seqClose : Guarded.Statement .seqClose := ⟨nofun, nofun⟩
theorem Guarded.cameraSet : Guarded.Statement .cameraSet := ⟨nofun, nofun⟩
theorem Guarded.audioSet : Guarded.Statement .audioSet := ⟨nofun, nofun⟩
theorem Guarded.wakeSet : Guarded.Statement .wakeSet := ⟨nofun, nofun⟩
theorem Guarded.prerollGet : Guarded.Statement .prerollGet := ⟨nofun, nofun⟩
theorem Guarded.powerState : Guarded.Statement .powerState := ⟨nofun, nofun⟩
theorem Guarded.paceSet : Guarded.Statement .paceSet := ⟨nofun, nofun⟩
theorem Guarded.batteryBudget : Guarded.Statement .batteryBudget := ⟨nofun, nofun⟩
theorem Guarded.scan : Guarded.Statement .scan := ⟨nofun, nofun⟩
theorem Guarded.digest : Guarded.Statement .digest := ⟨nofun, nofun⟩
theorem Guarded.peatProgram : Guarded.Statement .peatProgram := ⟨nofun, nofun⟩
theorem Guarded.peatErase : Guarded.Statement .peatErase := ⟨nofun, nofun⟩
theorem Guarded.kinEnrol : Guarded.Statement .kinEnrol := ⟨nofun, nofun⟩
theorem Guarded.entropyGet : Guarded.Statement .entropyGet := ⟨nofun, nofun⟩
theorem Guarded.dumpGet : Guarded.Statement .dumpGet := ⟨nofun, nofun⟩
theorem Guarded.partitionReset : Guarded.Statement .partitionReset := ⟨nofun, nofun⟩
theorem Guarded.spareMap : Guarded.Statement .spareMap := ⟨nofun, nofun⟩
theorem Guarded.deviceReset : Guarded.Statement .deviceReset := ⟨nofun, nofun⟩
theorem Guarded.deviceResetBegin : Guarded.Statement .deviceResetBegin := ⟨nofun, nofun⟩
theorem Guarded.transitionItemStart : Guarded.Statement .transitionItemStart := ⟨nofun, nofun⟩
theorem Guarded.eventPass : Guarded.Statement .eventPass := ⟨nofun, nofun⟩
theorem Guarded.thermalDegradeClear : Guarded.Statement .thermalDegradeClear := ⟨nofun, nofun⟩
theorem Guarded.hardTrip : Guarded.Statement .hardTrip := ⟨nofun, nofun⟩
theorem Guarded.boostEnd : Guarded.Statement .boostEnd := ⟨nofun, nofun⟩
theorem Guarded.leaseExpire : Guarded.Statement .leaseExpire := ⟨nofun, nofun⟩
theorem Guarded.freqChangeDrained : Guarded.Statement .freqChangeDrained := ⟨nofun, nofun⟩
theorem Guarded.journalTailTimer : Guarded.Statement .journalTailTimer := ⟨nofun, nofun⟩
theorem Guarded.peatPatrol : Guarded.Statement .peatPatrol := ⟨nofun, nofun⟩
theorem Guarded.tier0FrameDone : Guarded.Statement .tier0FrameDone := ⟨nofun, nofun⟩
theorem Guarded.tier1Halt : Guarded.Statement .tier1Halt := ⟨nofun, nofun⟩
theorem Guarded.tier1LimitExpire : Guarded.Statement .tier1LimitExpire := ⟨nofun, nofun⟩
theorem Guarded.lingerExpire : Guarded.Statement .lingerExpire := ⟨nofun, nofun⟩
theorem Guarded.powerTransitionComplete : Guarded.Statement .powerTransitionComplete := ⟨nofun, nofun⟩
theorem Guarded.pwrMainsAccept : Guarded.Statement .pwrMainsAccept := ⟨nofun, nofun⟩
theorem Guarded.mainsCountRestart : Guarded.Statement .mainsCountRestart := ⟨nofun, nofun⟩
theorem Guarded.mainsCountComplete : Guarded.Statement .mainsCountComplete := ⟨nofun, nofun⟩
theorem Guarded.mainsStableWake : Guarded.Statement .mainsStableWake := ⟨nofun, nofun⟩
theorem Guarded.pfailAssert : Guarded.Statement .pfailAssert := ⟨nofun, nofun⟩
theorem Guarded.pfailGate : Guarded.Statement .pfailGate := ⟨nofun, nofun⟩
theorem Guarded.pfailRise : Guarded.Statement .pfailRise := ⟨nofun, nofun⟩
theorem Guarded.porstAssert : Guarded.Statement .porstAssert := ⟨nofun, nofun⟩
theorem Guarded.powerOnTimer : Guarded.Statement .powerOnTimer := ⟨nofun, nofun⟩
theorem Guarded.vddHubRaise : Guarded.Statement .vddHubRaise := ⟨nofun, nofun⟩
theorem Guarded.hubRelease : Guarded.Statement .hubRelease := ⟨nofun, nofun⟩
theorem Guarded.refclkLoss : Guarded.Statement .refclkLoss := ⟨nofun, nofun⟩
theorem Guarded.entropyRetry : Guarded.Statement .entropyRetry := ⟨nofun, nofun⟩
theorem Guarded.healthTestFail : Guarded.Statement .healthTestFail := ⟨nofun, nofun⟩
theorem Guarded.drbgReseed : Guarded.Statement .drbgReseed := ⟨nofun, nofun⟩
theorem Guarded.scrubComplete : Guarded.Statement .scrubComplete := ⟨nofun, nofun⟩
theorem Guarded.alwaysOnSupplyLoss : Guarded.Statement .alwaysOnSupplyLoss := ⟨nofun, nofun⟩
theorem Guarded.refclkReturn : Guarded.Statement .refclkReturn := ⟨nofun, nofun⟩

end Sys2Proof.Laws
end

