-- ==== Sys2Proof/Tests/Slice0.lean ====
section
/-! SUPPORT. Tests: ill-formed commands, one step of the spec's own examples, and for each statement of Obligations.lean a
concrete state that meets its hypotheses, clause by clause. -/

namespace Sys2Proof.Tests

set_option Elab.async false

open Sys2Proof.Machine

/-! ### Small states -/

/-- A device in service, in RUN. -/
def base : Device := { Device.init with
  aon := { Device.init.aon with porstLow := false, boot := .done, gpio1 := true }
  pwr := { Device.init.pwr with state := .run } }

def at_ (d : Device) (now : Nat := 10000000000) : State := ⟨[], now, d⟩

/-- A running core, at offset 0. -/
def run0 : Core := { Core.init with run := .running }

/-- Core 0 as `k`, in no partition. -/
def coreS (k : Core) : State := at_ (base.setCore 0 k)

/-- Executes always; executes where p1 is false. -/
def g0 : Guard := ⟨0, false⟩
def g1 : Guard := ⟨1, false⟩

/-- The command answers a next state, and that meets `f`. -/
def after (o : Host.Outcome State Fault Refusal) (f : State → Bool) : Bool :=
  match o with
  | .next t => f t
  | _ => false

/-- A packet of opcode `op`, tag 0, context 0, as the interpreter holds it. -/
def pkt (op : Nat) (ps : List Word) (flags : Nat := 0) : Packet :=
  ⟨mkWord [(flags, 0), (3 + ps.length, 12), (op, 56)] :: 0 :: ps ++ [0], 0, 0, []⟩

/-- The interpreter holds `p`, whose reply may leave at once. -/
def Holding (d : Device) (p : Packet) : State :=
  at_ { d with port := { d.port with interp := some p, order := [⟨p.id, true, none⟩] } }

/-- A tenant is open, with context 1. -/
def open1 : Device := { base with ten := { base.ten with state := .open_, id := 7, key := some [1, 2, 3, 4], contexts := [(1, true)] } }

/-! ### WellFormed: an ill-formed term for each check -/

theorem test_wf_tlp_empty : (Instr.cmdPortWrite [] .good).wf = false := by decide
theorem test_wf_tlp_long : (Instr.cmdPortWrite (List.replicate 33 0) .good).wf = false := by decide
theorem test_wf_tlp_whole : (Instr.cmdPortWrite (List.replicate 32 0) .good).wf = true := by decide
theorem test_wf_tlp_partial : (Instr.cmdPortWrite [0] (.partialWord 1)).wf = false := by decide
theorem test_wf_read_none : (Instr.replyPortRead 0).wf = false := by decide
theorem test_wf_read_nine : (Instr.replyPortRead 9).wf = false := by decide
theorem test_wf_access : (Instr.regWriteOther (.bar0 0x0214) true 0).wf = false := by decide
theorem test_wf_access_narrow : (Instr.regWriteOther (.bar0 0x0214) false 0).wf = true := by decide
theorem test_wf_readings : (Instr.thermalSample [400] [] [400]).wf = false := by decide
theorem test_wf_block : (Instr.audioBlockComplete [] []).wf = false := by decide
theorem test_wf_row_pool : (Instr.sramRowError .pool 0 3072 false [] []).wf = false := by decide
theorem test_wf_row_acc : (Instr.sramRowError .accumulator 80 0 false [] []).wf = false := by decide
theorem test_wf_row_mere : (Instr.sramRowError .mere 8 0 false [] []).wf = false := by decide
theorem test_wf_row_hub : (Instr.sramRowError .hub 4 0 false [] []).wf = false := by decide
theorem test_wf_bursts : (Instr.skewWindow false [1, 2, 3, 4, 5]).wf = false := by decide

/-- No row of the table gives bits. -/
theorem test_decode : decodeTableWord 8 0 = none := by decide

/-! ### One step of a core -/

/-- R56: a sum is taken modulo 2^32. -/
theorem test_add_wraps :
    after (exec (.add 0 g0 ⟨3, 1, 2, 0⟩) (coreS { run0 with g := [(1, 0xFFFFFFFF), (2, 2)] }))
      (fun t => (t.core 0).g.get 0 3 == 1 && (t.core 0).pc == 4) = true := by decide +kernel

/-- R56: SRA shifts the sign in; the amount is g[SRCB] modulo 32. -/
theorem test_sra_sign :
    after (exec (.sra 0 g0 ⟨3, 1, 2, 0⟩) (coreS { run0 with g := [(1, 0x80000000), (2, 33)] }))
      (fun t => (t.core 0).g.get 0 3 == 0xC0000000) = true := by decide +kernel

/-- R56: MULH is the upper half of the signed product, (−1) × 1. -/
theorem test_mulh :
    after (exec (.mulh 0 g0 ⟨3, 1, 2, 0⟩) (coreS { run0 with g := [(1, 0xFFFFFFFF), (2, 1)] }))
      (fun t => (t.core 0).g.get 0 3 == 0xFFFFFFFF) = true := by decide +kernel

/-- R48: a write to p0 is ignored. -/
theorem test_p0 :
    after (exec (.cne 0 g0 ⟨0, 1, 1, 0⟩) (coreS run0)) (fun t => (t.core 0).p == [] && (t.core 0).guardOk g0) = true := by
  decide +kernel

/-- R56: CALL saves the return offset and branches by words. -/
theorem test_call :
    after (exec (.call 0 g0 0x3FFFFF) (coreS { run0 with pc := 0x100 }))
      (fun t => (t.core 0).g.get 0 31 == 0x104 && (t.core 0).pc == 0xFC) = true := by decide +kernel

/-- R8: words are little-endian in the pool. -/
theorem test_store_order :
    after (exec (.stw 0 g0 ⟨1, 0, 0, 0, false, false⟩) (coreS { run0 with g := [(1, 0x11223344)] }))
      (fun t => (t.core 0).pool == [(0, 0x44), (1, 0x33), (2, 0x22), (3, 0x11)]) = true := by decide +kernel

/-- R54: class 0xB is reserved; a guarded-off word raises nothing (R53). -/
theorem test_illegal :
    after (exec (.illegalInstr 0 0xB0000000) (coreS run0)) (fun t => (t.core 0).run == .faulted) = true
      ∧ after (exec (.illegalInstr 0 0xB2000000) (coreS run0)) (fun t => (t.core 0).pc == 4) = true := by decide +kernel

/-! ### Hypotheses of the statements: cores -/

theorem wit_StepRunsFront : ({ at_ base with pending := [.echo, .echo] } : State).pending = .echo :: [.echo] := by decide

theorem wit_IdleStepCountsTime : (at_ base).pending = [] ∧ base.aon.up = true ∧ base.aon.refclk = true
    ∧ (at_ base (2 ^ 64 - 41)).now + 40 < 2 ^ 64 ∧ ({ base.aon with refclk := false } : Aon).refclk = false
    ∧ 999999960 / 1000000000 < (999999960 + 40) / 1000000000 := by decide

/-- The largest time from which the idle tick answers a next state. -/
theorem wit_TimeIsMonotonic : after (step (at_ base (2 ^ 64 - 41))) (fun t => t.now == 2 ^ 64 - 1) = true
    ∧ (at_ base).pending.head? ≠ some .powerOnTimer := by decide +kernel

theorem wit_TimeStaysIn64Bits : (at_ base (2 ^ 64 - 41)).now < 2 ^ 64
    ∧ after (step (at_ base (2 ^ 64 - 41))) (fun _ => true) = true := by decide +kernel

theorem wit_executes : (coreS run0).executes 0 g0 ∧ (coreS { run0 with pc := 0x2FFFFC }).executes 0 g0
    ∧ (coreS { run0 with p := [(1, true)] }).executes 0 g1 := by
  unfold State.executes; decide +kernel

theorem wit_CoreInstructionGates : (Instr.add 0 g0 ⟨0, 0, 0, 0⟩).coreGuard = some (0, g0)
    ∧ ((coreS { run0 with run := .halted }).core 0).active = false ∧ ((coreS { run0 with run := .faulted }).core 0).active = false
    ∧ ((coreS { run0 with pc := 0x300000 }).core 0).active = true ∧ poolBytes ≤ ((coreS { run0 with pc := 0x300000 }).core 0).pc
    ∧ ((coreS run0).core 0).active = true ∧ ((coreS run0).core 0).pc < poolBytes ∧ ((coreS run0).core 0).guardOk g1 = false
    ∧ (Instr.add 0 g0 ⟨0, 0, 0, 1⟩).reservedSet = true ∧ (Instr.ldw 0 g0 ⟨0, 0, 0, 0, false, true⟩).reservedSet = true := by
  decide +kernel

/-- Partition 2 holds bundle 0 (cores 0 to 3). -/
def part2 (k : Core) : Device := (base.setCore 0 k).setPart 2 { Part.init with defined := true, bundles := 1, pg := 2 }

theorem wit_CoreFaultResult : (coreS run0).dev.partOf (0 : CoreId).toNat = none ∧ (coreS run0).dev.cas.tier1 = none
    ∧ (part2 run0).partOf (0 : CoreId).toNat = some 2 ∧ (part2 run0).partOf (3 : CoreId).toNat = some 2
    ∧ ((part2 run0).part 2).reset = none := by decide +kernel

theorem wit_ScalarResult : (coreS run0).executes 0 g0 ∧ (⟨31, 31, 31, 0⟩ : RegOps).rsv = 0 ∧ (⟨31, 0, 0xFFFF⟩ : WideOps).rsv = 0 := by
  unfold State.executes; decide +kernel

theorem wit_PredicateResult : (⟨7, 7, 7, 0⟩ : RegOps).rsv = 0 ∧ (7 : BitVec 5).toNat < 8 ∧ (⟨7, 0, 0x400⟩ : ImmOps).dst.toNat < 8 := by
  decide

theorem wit_BranchResult : (coreS { run0 with pc := 0x2FFFFC }).executes 0 g0 ∧ (⟨1, 0⟩ : JrOps).rsv = 0 := by
  unfold State.executes; decide +kernel

/-- Element (0, 0) of a descriptor with BASE at the last place where the access fits, and no counts. -/
theorem wit_PoolLoadResult_PoolStoreResult : element 0x2FFFFC 0 0 4 = some 0x2FFFFC ∧ 0x2FFFFC % 4 = 0 ∧ element 0x2FFFFE 0 0 2 = some 0x2FFFFE
    ∧ element 0x2FFFFF 0 0 1 = some 0x2FFFFF ∧ element 0x2FFF00 0 0 256 = some 0x2FFF00 ∧ 0x2FFF00 % 64 = 0
    ∧ element 0x2FFFF0 0 0 16 = some 0x2FFFF0 ∧ 0x2FFFF0 % 16 = 0 ∧ (15 : BitVec 5).toNat < 16 := by decide +kernel

/-- One place further: outside the pool, misaligned, another space, an index at its count. -/
theorem wit_PoolAccessFaults : element 0x2FFFFD 0 0 4 = none ∧ element 0x2FFF01 0 0 256 = none
    ∧ element 2 0 0 4 = some 2 ∧ 2 % 4 ≠ 0 ∧ element 8 0 0 16 = some 8 ∧ 8 % 16 ≠ 0 ∧ element (2 ^ 46) 0 0 1 = none
    ∧ descCount0 (1 <<< 72) = 1 ∧ descCount0 (1 <<< 72) ≤ 1 ∧ descCount1 (1 <<< 112) = 1 ∧ element (1 <<< 72) 1 0 1 = none := by
  decide +kernel

theorem wit_VectorElementResult : (laneOf 0).isSome = true ∧ (laneOf 1).isSome = true
    ∧ ((laneOf 0).bind (·.flt)) = none ∧ ((List.range 8).filterMap laneOf).any (·.flt.isSome) = true := by decide +kernel

theorem wit_VectorReduceAndMove : ∃ l, laneOf (0 : BitVec 3).toNat = some l ∧ 63 < l.count ∧ laneOf ((1 : BitVec 5).toNat % 8) ≠ none := by
  refine ⟨(laneOf 0).get (by decide), ?_⟩; decide +kernel

theorem wit_AccumulatorMoveResult : (coreS run0).executes 0 g0 ∧ ((coreS run0).core 0).mx = []
    ∧ (((coreS { run0 with g := [(1, 4095)] }).core 0).g.get 0 1 : W32).toNat ≤ 4095
    ∧ 4095 < (((coreS { run0 with g := [(1, 4096)] }).core 0).g.get 0 1 : W32).toNat
    ∧ ((coreS { run0 with mx := [⟨0, 0, 0, 0⟩] }).core 0).mx ≠ [] := by
  unfold State.executes; decide +kernel

/-- A tile descriptor that breaks no rule of R63: a 1 × 64 × 64 int8 matmul of one iteration, every base 0. -/
def tileLo : BitVec 128 := 1 <<< 34 ||| 1 <<< 44 ||| 1 <<< 76
def job0 : MxJob := ⟨tileLo, 0, 0, 0⟩

theorem wit_ArrayInstructionResult : ((2 : BitVec 4).toNat % 2 = 0) ∧ ((3 : BitVec 4).toNat % 2 = 1)
    ∧ ((coreS { run0 with mx := [job0] }).core 0).mx.length < 2 ∧ 2 ≤ ((coreS { run0 with mx := [job0, job0] }).core 0).mx.length
    ∧ tileOk (readTile tileLo 0) (readGeo 0) 2 = true ∧ tileOk (readTile 0 0) (readGeo 0) 2 = false
    ∧ (15 : W32).toNat ≤ 15 ∧ 15 < (16 : W32).toNat := by decide +kernel

theorem test_mxrun : after (exec (.mxrun 0 g0 ⟨2, 0, 0⟩) (coreS { run0 with d := [(2, tileLo)] }))
    (fun t => (t.core 0).mx == [job0] && (t.core 0).pc == 4) = true := by decide +kernel

/-- L 1: one iteration left, and none. -/
theorem wit_ArrayEventResult : (readTile tileLo 0).l = 1
    ∧ ((coreS { run0 with mx := [⟨tileLo, 0, 0, 0⟩] }).core 0).mx = ⟨tileLo, 0, 0, 0⟩ :: []
    ∧ 0 < (readTile tileLo 0).l ∧ (readTile tileLo 0).l ≤ 1 ∧ (readTile tileLo 0).doneEn = false := by decide +kernel

/-- A local knot of core 0 (index 5), a global one (index 9) that partition 2 owns, and one that nobody owns (index 10). -/
def localName : W32 := 0x00050000
def globalName : W32 := 0x10090000
def knotS : State := at_ { (part2 { run0 with g := [(1, localName), (2, 3)] }) with
  fab := { (part2 { run0 with g := [(1, localName), (2, 3)] }).fab with
    lknots := [(5, ⟨3, 0⟩)], gknots := [(9, { owner := some 2 })]
    knotOps := [⟨1, localName, 2 ^ 32 - 4, false⟩, ⟨1, globalName, 1, true⟩] } }

/-- Counts at, below and above the value waited for; a stale generation, here and in core 1; reserved bits. -/
theorem wit_KnotResult : knotS.executes 0 g0 ∧ knotS.dev.nameOk 0 localName = true ∧ knotS.dev.nameOk 0 globalName = true
    ∧ nmGlobal globalName = true ∧ nmGlobal localName = false ∧ knotS.dev.nameOk 0 0x20000000 = false
    ∧ knotS.dev.liveCount localName = some 3 ∧ nmCore localName = 0 ∧ 3 + (2 ^ 32 - 4) < 2 ^ 32
    ∧ knotS.dev.postedTo 0 localName = false ∧ knotS.dev.liveCount globalName = some 0
    ∧ knotS.dev.nameOk 0 0x00410001 = true ∧ knotS.dev.liveCount 0x00410001 = none ∧ nmGlobal 0x00410001 = false
    ∧ nmCore 0x00410001 ≠ 0 ∧ ({ run0 with run := .waitKnot localName 3 7 } : Core).run = .waitKnot localName 3 7 ∧ knotS.dev.postedTo 0 0x00410001 = false := by
  unfold State.executes; decide +kernel

/-- R71: KWAIT goes on when the count has reached g[VAL], and sets the predicate. -/
theorem test_kwait : after (exec (.kwait 0 g0 ⟨1, 2, 3, 0⟩) knotS) (fun t => (t.core 0).pc == 4 && (t.core 0).p == [(3, true)])
    = true := by decide +kernel

/-- A message of 32 flits that stands first at its receiver's crossbar port. -/
def msg32 : Msg := ⟨0, 1, 4, 0, 0, List.replicate 1024 0xAB, 0, some 0⟩

def msgD (used : Nat) : Device := (base.setCore 0 { run0 with g := [(1, 0x401), (2, 32), (3, 1)], d := [(1, 0x2FFC00)] }).setCore 1
  { Core.init with chans := [(4, ⟨0x1000, 64, 7, 40, used⟩)] }
/-- Core 0 runs with SRC at the pool's last 32 flits; core 1 has channel 4 open on 64 flits, its write point at 40, so that a
message of 32 passes over the window's end. -/
def msgS (m : List Msg) (used : Nat) : State := at_ { msgD used with fab := { (msgD used).fab with msgs := m } }

theorem wit_MessageResult : (msgS [] 0).executes 0 g0 ∧ 1 ≤ (32 : W32).toNat ∧ (32 : W32).toNat ≤ 32
    ∧ descBase 0x2FFC00 + 32 * 32 ≤ 0x300000 ∧ descCount0 (1 <<< 72) ≠ 0 ∧ descCount0 0 = 0
    ∧ (msgS [] 0).dev.fab.msgs.find? (fun m => m.src == 0 && m.dst == 1) = none
    ∧ (msgS [msg32] 0).dev.fab.msgs.find? (fun m => m.src == 0 && m.dst == 1) = some msg32 ∧ msg32.data.length / 32 = 32
    ∧ ({ msg32 with gen := 1 } : Msg).gen ≠ ((msgS [] 0).core 1).gen ∧ msg32.gen = ((msgS [] 0).core 1).gen
    ∧ (msgS [msg32] 0).dev.atPort msg32 = true ∧ (msgS [] 0).dev.atPort { msg32 with turn := none } = false
    ∧ (msgS [{ msg32 with src := 2 }] 0).dev.atPort { msg32 with turn := some 1 } = false
    ∧ msgRoute 0 0 32 = [] ∧ (msgRoute 0 4 32).isEmpty = false := by
  unfold State.executes; decide +kernel

/-- 56 flits are taken, the 24 passed over among them: with 8 in use they fit exactly, with 9 they do not. -/
theorem wit_MessageFits : 64 < 40 + 32 ∧ 8 + (32 + (64 - 40)) ≤ 64 ∧ 64 < 9 + (32 + (64 - 40))
    ∧ ((msgS [] 8).dev.lknot 1 7).count + 1 < 2 ^ 32 ∧ ((msgS [] 8).dev.lknot 1 7).gen < 2 ^ 16 := by decide +kernel

/-- A message of one flit at the write point. -/
theorem test_msg_arrive : after (exec (.msgArrive 0 1) (msgS [{ msg32 with data := List.replicate 32 0xAB }] 8))
    (fun t => t.dev.fab.msgs == [] && ((t.core 1).chans.get {} 4).wp == 41 && ((t.core 1).chans.get {} 4).used == 9
      && (t.core 1).pool.get 0 0x151F == 0xAB && (t.dev.lknot 1 7).count == 1) = true := by decide +kernel

def sysS (k : Core) : State := at_ (part2 k)

theorem wit_SystemInstructionResult : (sysS { run0 with control := true, g := [(1, 0x2E0000), (2, 16384)] }).executes 0 g0
    ∧ (sysS run0).dev.partOf 0 = some 2 ∧ (sysS run0).dev.fab.msgs = [] ∧ (sysS run0).dev.fab.knotOps = []
    ∧ 0x2E0000 + 8 * 16384 ≤ 0x300000 ∧ 0x300000 < 0x2E0008 + 8 * 16384 ∧ 16384 < (16385 : W32).toNat
    ∧ 0x0B < (0x0C : BitVec 8).toNat ∧ (0x0C : BitVec 8) ≠ 0x10 ∧ ({ run0 with mx := [job0] } : Core).mx ≠ [] := by
  unfold State.executes; decide +kernel

theorem test_halt :
    after (exec (.halt 0 g0 ⟨1, 2, 0, 0⟩) (sysS { run0 with control := true, g := [(1, 0x2E0000), (2, 16384)] }))
      (fun t => (t.core 0).run == .halted && (t.core 0).result == (0x2E0000, 16384)) = true := by decide +kernel

theorem wit_IllegalWordResult : reservedWord 0xBFFFFFFF = true ∧ (coreS run0).executes 0 ⟨0, false⟩ ∧ reservedWord 0x00000000 = false
    ∧ (0xB2000000 : BitVec 32).extractLsb' 25 3 = 1 ∧ ((coreS run0).core 0).guardOk ⟨1, false⟩ = false ∧ reservedWord 0xB2000000 = true := by
  unfold State.executes; decide +kernel

/-- COPY of 128 bytes from pool offset 0 to 0x2FFF80. -/
def copyLo : BitVec 128 := 0x2FFF80 <<< 64
def copyHi : BitVec 128 := 128
def copyE : MoverEntry := ⟨.copy, 0, 0x2FFF80, 128, false, 0, 0, false, false, 0⟩
/-- A walk of one page of the sequence's layer 0 from VB 0, one block, to pool offset 0x2F8000; its table entry is valid. -/
def walkLo : BitVec 128 := 0x800000000000 ||| (1 <<< 56) ||| (1 <<< 105) ||| (1 <<< 116)
def walkHi : BitVec 128 := 0x2F8000
def walkCore : Core := { run0 with pool := [(3, 0x80)] }

def walkE : MoverEntry := ⟨.copy, 0x800000000000, 0x2F8000, 32768, false, 0, 0, false, false, 0⟩

theorem wit_MoverInstructionResult : (coreS walkCore).executes 0 g0 ∧ checkMove copyLo copyHi = .ok copyE
    ∧ checkMove copyLo (129 ||| 1 <<< 64) = .bad fcDesc 0 ∧ checkMove (copyLo ||| 1 <<< 46) copyHi = .bad fcPoolRange (2 ^ 46)
    ∧ (List.replicate 15 copyE).length < 16 ∧ 16 ≤ (List.replicate 16 copyE).length
    ∧ (walkCopies walkCore walkLo walkHi).toOption = some [walkE] ∧ walkE.fault = none
    ∧ (walkCopies run0 walkLo walkHi).toOption = none ∧ (List.replicate 15 copyE).length + 1 ≤ 16 := by
  unfold State.executes; decide +kernel

/-- A walk from the last frame of allocation space: its copy leaves that space, so PMQ's own check refuses it. -/
theorem wit_MoverInstructionResult_walkRefused :
    (walkCopies { run0 with pool := [(0, 1), (3, 0x80)] } (walkLo ||| 0x3FFFFFFC0000) walkHi).toOption
        = some ([] ++ { walkE with src := 0xC00000000000 } :: [])
      ∧ ({ walkE with src := 0xC00000000000 } : MoverEntry).fault = some (fcPoolRange, 0xC00000000000) := by decide +kernel

/-- An allocation of two pages from page 3 in half 0, and a planned one in slot 1. -/
def allocA : Alloc := ⟨1, 3, 2, 0, false, none, false, 0, none, [], [], none⟩
def withA (d : Device) : Device := { d with ten := { d.ten with allocs := [(0, some allocA)] } }
def started (e : MoverEntry) : MoverEntry := { e with started := true }
def fromA : MoverEntry := ⟨.copy, allocA.base, 0x100, 131072, false, 0, 0, true, false, 0⟩
def toA : MoverEntry := ⟨.copy, 0x100, allocA.base + 131071, 1, false, 0, 0, true, false, 0⟩

theorem wit_MoverQueueResult : copyE.kind = .copy ∧ inPoolSpace copyE.src = true ∧ inPoolSpace copyE.dst = true
    ∧ (List.replicate 3 (started copyE)).length < 4 ∧ 4 ≤ (List.replicate 4 (started copyE)).length
    ∧ rangesMeet ((⟨.copy, 0x200, 0x400, 128, false, 0, 0, true, false, 0⟩ : MoverEntry).ranges run0) (copyE.ranges run0) = false
    ∧ rangesMeet ((started copyE).ranges run0) (copyE.ranges run0) = true
    ∧ ((coreS { run0 with mover := [started copyE] }).core 0).mover.length ≤ (1 : BitVec 4).toNat
    ∧ (coreS run0).dev.partOf 0 = none ∧ inAllocSpace fromA.src = true ∧ inPoolSpace fromA.src = false ∧ inAllocSpace fromA.dst = false
    ∧ 0 < fromA.len ∧ (pageLines fromA.src fromA.len).any (fun x => (withA base).filling x.1 x.2) = false
    ∧ (withA base).asking (.mover 0 0) = false ∧ { base with arb := ⟨[⟨.halfSpine, 0, 0, 1, 0, none, ⟨none, some 0, .mover 0 0⟩, [], none⟩], [], 1⟩ }.asking (.mover 0 0) = true
    ∧ (withA base).reach 0 fromA.src fromA.len false = .ok 0 allocA 0 ∧ base.ownerOf (fromA.src % 2 ^ 38 / 65536) = none
    ∧ (withA base).reach 0 toA.dst toA.len true = .ok 0 allocA 131071 := by decide +kernel

/-- A record: FILL of page 0 of the plan's first allocation, MARK 2, in a list of one at offset 0x40. -/
def schedCore : Core := { run0 with part := true, sched := ⟨0x40, 1, 6, 0⟩, pool := [(0x42, 2), (0x48, 1)] }
def planW : Weave := ⟨0, 0, 0, false, none, 0, 0, 0, [], [], [], [], none, [], [], [], 1, 0, 0, 0, 0, some 2, [0], [], []⟩
def schedS (count : Nat) : State :=
  let d := withA (part2 schedCore)
  at_ { d with ten := { d.ten with weaves := [(0, some planW)] }, parts := [(2, { d.part 2 with weave := some 0 })]
               fab := { d.fab with lknots := [(6, ⟨count, 0⟩)] } }

theorem wit_ScheduleRecord : (schedS 2).dev.recordEntry (schedCore.pool.rdLe 0x40 32) [0]
      = some ⟨.fill 0 0 1, allocA.base, 0, 65536, false, 0, 0, false, false, 0⟩ ∧ schedCore.pool.rdLe 0x40 32 / 2 ^ 16 % 2 ^ 16 = 2
    ∧ ((schedS 2).dev.lknot 0 6).count = 2 ∧ ((schedS 1).dev.lknot 0 6).count = 1
    ∧ (((schedS 2).dev.partOf 0).bind (schedS 2).dev.boundWeave).map (·.planSlots) = some [0]
    ∧ (schedS 2).dev.recordEntry (2 ^ 32) [0] = none ∧ schedCore.part = true ∧ schedCore.sched.next < schedCore.sched.count := by
  decide +kernel

theorem test_schedule : after (exec (.scheduleRecordIssue 0) (schedS 2)) (fun t => (t.core 0).mover.length == 1 && (t.core 0).sched.next == 1)
    = true := by decide +kernel

/-- A FILL with its frames free and with none, an effect that completes and one that faults. -/
def fillE (p : Nat) : MoverEntry := ⟨.fill 0 p 1, allocA.base + p * 65536, 0, 65536, false, 0, 0, true, false, 0⟩
def windowD (held : Nat) : Device :=
  { base with ten := { base.ten with allocs := [(0, some { allocA with flags := 0x10, windowFrames := 1 })] }
              mem := { base.mem with window := [(held, true)] } }

theorem wit_MoverQueueResult_effects : (windowD 9).fillRoom 0 0 1 = true ∧ (windowD 4).fillRoom 0 0 1 = false
    ∧ (fillE 0).kind = .fill 0 0 1 ∧ (fillE 0).doneEn = false ∧ (fillE 0).started = true ∧ (fillE 0).done = false
    ∧ (match (windowD 9).moveEntry 0 (fillE 0) with | .ok d => d == windowD 9 | .bad _ _ => false) = true
    ∧ (match (windowD 9).moveEntry 0 { fillE 0 with kind := .fill 7 0 1 } with | .ok _ => false | .bad _ f => f.code == fcHandleStale) = true
    ∧ ((fillE 0).reads run0).any (fun x => (windowD 9).filling x.1 x.2) = false ∧ (windowD 9).asking (.mover 0 0) = false := by
  decide +kernel

/-! ### Arbiters and events -/

/-- Two requests at a mesh router, the one of port 3 nearer by one unit, and one at another router. -/
def nobody (w : Xfer) : Job := ⟨none, some 3, w⟩
def reqA : Req := ⟨.meshRouter, 0, 3, 1, lstNow 10000000000 + 5, none, nobody (.msg 7), [⟨.halfSpine, 1, 2, 1, none⟩], none⟩
def reqB : Req := ⟨.meshRouter, 0, 1, 2, lstNow 10000000000 + 6, none, ⟨some 2, some 3, .mover 3 0⟩, [], none⟩
def holdH : Holder := ⟨.meshRouter, 0, 3, 10000000000 - 100000, 0, nobody (.mover 3 0), []⟩
def arbS (rs : List Req) (hs : List Holder) : State := at_ { base with arb := ⟨rs, hs, 8⟩ }
/-- A memory port that serves, as far as half 0's first subchannel goes. -/
def memReq : Req := ⟨.memPort, 0, 2, 1, 0, none, nobody (.mover 3 0), [], some 5⟩
def memD : Device := { base with
  arb := ⟨[memReq], [], 8⟩, dram := { base.dram with trained := true, refreshFrom := 20000000000 } }

theorem wit_ArbiterResult : reqA.at_ .meshRouter 0 = true ∧ reqA.nearer 10000000000 reqB = true ∧ reqB.nearer 10000000000 reqA = false
    ∧ (∀ r ∈ (arbS [reqA, reqB] []).dev.arb.reqs, r.at_ .halfSpine 0 = false) ∧ 0 < lstDist 10000000000 reqA.lst
    ∧ reqA.units ≤ 1 ∧ reqA.route ≠ [] ∧ 1 < reqB.units ∧ ({ reqB with units := 1 } : Req).route = []
    ∧ (arbS [] [holdH]).dev.arb.holders.find? (·.at_ .meshRouter 0) = some holdH
    ∧ ((arbS [] [holdH]).dev.arb.holders.any fun h => h.at_ .meshRouter 0 && (arbS [] [holdH]).dev.heldOpen h) = false
    ∧ holdH.since + base.holdNs .meshRouter 0 ≤ 10000000000 ∧ 10000000000 < ({ holdH with since := 10000000000 } : Holder).since + base.holdNs .meshRouter 0
    ∧ holdH.job.part = none ∧ holdH.job.what = .mover (3 : CoreId).toNat 0 ∧ reqB.job.part = some 2 := by decide +kernel

/-- R69: a message that waits at its receiver's port keeps the output it came over. -/
theorem wit_ArbiterResult_held : ({ msgD 64 with fab := { (msgD 64).fab with msgs := [msg32] } } : Device).heldOpen
    ⟨.meshRouter, 0, 3, 0, 0, nobody (.msg 0), []⟩ = true := by decide +kernel

theorem wit_ArbiterResult_bridge : (∀ h ∈ ({ reqA with site := .bridge, port := 1 } : Req).sides, base.hub.laneStopped.get false h = false)
    ∧ ({ reqA with site := .bridge, port := 1 } : Req).sides = [0, 1] := by decide +kernel

theorem wit_ArbiterResult_memory : memD.dram.serves = true ∧ (memD.sub 0).stopped 10000000000 = false ∧ memD.refreshReqs 10000000000 0 = []
    ∧ memReq.at_ .memPort 0 = true ∧ memReq.units ≤ 1 ∧ memReq.page = some 5 ∧ (memD.halfDram 0).draws + 1 < 2 ^ 32
    ∧ (List.replicate 15 (⟨0, 0, 0, false⟩ : Neighbour)).length < 16 ∧ base.dram.serves = false := by decide +kernel

/-- R34: the nearer request is granted, though its port number is higher. -/
theorem test_grant : after (exec (.arbiterGrant .meshRouter 0) (arbS [reqB, reqA] [])) (fun t =>
    t.dev.arb.holders == [⟨.meshRouter, 0, 3, 10000000000, lstNow 10000000000 + 5, nobody (.msg 7), [⟨.halfSpine, 1, 2, 1, none⟩]⟩]
      && t.dev.arb.reqs.length == 2) = true := by decide +kernel

/-- R406: over a side of the bridge that has stopped nothing is granted; the hub's traffic to the other half goes on. -/
def bridgeReq (slice : Nat) : Req := ⟨.bridge, 0, 0, 1, 0, none, nobody .hub, [⟨.mereSlice, slice, 1, 1, none⟩], none⟩
theorem test_bridge_side_stopped :
    let s := at_ { base with arb := ⟨[bridgeReq 5, bridgeReq 3], [], 8⟩, hub := { base.hub with laneStopped := [(1, true)] } }
    after (exec (.arbiterGrant .bridge 0) s) (fun t => t.dev.arb.holders.map (·.route) == [(bridgeReq 3).route]) = true := by
  decide +kernel

/-- R38: a cut transfer is gone. -/
theorem test_hold_cut : after (exec (.holdCut .meshRouter 0) { arbS [] [holdH] with
      dev := ({ base with arb := ⟨[], [holdH], 8⟩ } : Device).setCore 3 { run0 with mover := [{ copyE with started := true }] } })
    (fun t => (t.core 3).mover == [] && t.dev.arb.holders == []) = true := by decide +kernel

def nbrReq (w : Xfer) : Req := ⟨.memPort, 0, 0, 1, 0, none, ⟨none, none, w⟩, [], none⟩

theorem wit_NeighbourRefresh : (nbrReq .neighbour).at_ .memPort 0 = true ∧ (nbrReq .neighbour).job.what = .neighbour
    ∧ (nbrReq .neighbour).units = 1 ∧ (nbrReq .neighbour).route = [] ∧ (nbrReq .neighbour).page = none := by decide +kernel

/-- A bank whose activations have reached the count that JESD79-5 sets owes a refresh-management command. -/
theorem wit_NeighbourRefresh_rfm :
    let d : Device := { memD with arb := ⟨[], [], 8⟩, dram := { memD.dram with
      kit := { memD.dram.kit with activations := 4 }, subs := [(0, { SubDram.init with activations := [(9, 4)] })] } }
    (d.refreshReqs 10000000000 0).map (·.job.what) = [.rfm 9] ∧ (d.sub 0).stopped 10000000000 = false := by decide +kernel

def evA : Ev := ⟨5, 4, 0x0030, 1, 2⟩
def evB : Ev := ⟨5, 1, 0x0001, 3, 4⟩
def evS (w : List Ev) (fifo : List (List Word)) (rpos : Nat) : State := at_ { base with ev := { base.ev with waiting := w, fifo := fifo, rpos := rpos } }

/-- Of two events of one time the lower source stands first; a FIFO with one place, and a full one. -/
theorem wit_EventPassResult : base.portOn = true ∧ (evS [] [] 0).dev.ev.waiting = [] ∧ (evS [evA, evB] [] 0).dev.ev.waiting[1]? = some evB
    ∧ evB.before evA = true ∧ (evS [evA] [] 0).dev.ev.gap = none
    ∧ (List.replicate 4095 [0, 0, 0, 0] : List (List Word)).length < 4096 ∧ 4096 ≤ (List.replicate 4096 [0, 0, 0, 0] : List (List Word)).length := by
  decide +kernel

theorem test_event_pass : after (exec .eventPass (evS [evA, evB] [] 0)) (fun t =>
    t.dev.ev.waiting == [evA] && t.dev.ev.fifo == [[0x0001000100000000, 5, 3, 4]] && t.dev.port.cause.getLsbD 5) = true := by decide +kernel

/-- R214: the fourth word read removes the record. -/
theorem test_event_read : after (exec .eventPortRead (evS [] [[1, 2, 3, 4]] 3)) (fun t => t.dev.port.readData == [4] && t.dev.ev.fifo == [])
    = true := by decide +kernel

/-! ### The host port -/

def portS (p : Port) : State := at_ { open1 with port := p }
def err1 : PortErr := ⟨1, true, 4, 42⟩

theorem wit_CommandPortWriteResult : 1 ≤ (List.replicate 32 0 : List Word).length ∧ (List.replicate 32 0 : List Word).length ≤ 32
    ∧ (portS Port.init).dev.portOn = true ∧ Port.init.err = none ∧ base.ready = true
    ∧ (List.replicate 8160 0 : List Word).length + 32 ≤ 8192 ∧ 8192 < (List.replicate 8161 0 : List Word).length + 32
    ∧ ({ Port.init with err := some err1 } : Port).err.isSome = true ∧ 32 < (List.replicate 33 0 : List Word).length := by decide +kernel

/-- The header of R203's example: RUN, tag 0x015, generation 3, context 2, length 6, no flags. -/
def hdr203 : Word := 0x3001530200006000

theorem test_header : (hdrId hdr203 42 0) = ⟨0x30, 0x015, 3, 2, 42, 0⟩ ∧ hdrLen hdr203 = 6 ∧ hdrFlags hdr203 = 0 := by decide +kernel

/-- R208's example: the TLP that carries word 4 of packet 42 arrives poisoned. -/
def port208 : Port := { Port.init with
  fifo := [hdr203, 0, 0, 0], arrIdx := 4, arrHdr := some hdr203, arrSeq := 42, expSeq := 42, lastGood := 41 }

theorem test_poisoned : after (exec (.cmdPortWrite [0, 0, 0, 0] .poisoned) (portS port208)) (fun t =>
    t.dev.port.err == some err1 && t.dev.port.cause.getLsbD 2 && t.dev.port.replies.length == 1
      && wordAt (t.dev.port.replies.getD 0 []) 0 == 0x3001530200004000 && wordAt (t.dev.port.replies.getD 0 []) 1 == 0x020000000000002A)
    = true := by decide +kernel

/-- R208's example: PORT_RESYNC 0xA501_0000_0000_002A. -/
theorem test_resync : after (exec (.portResyncCmd 0xA50100000000002A) (portS { port208 with err := some err1, arrHdr := none })) (fun t =>
    t.dev.port.err == none && t.dev.port.expSeq == 42 && t.dev.port.lastGood == 41 && t.dev.port.fifo == []) = true := by decide +kernel

/-- A packet of 3 words and one of 32 in context 1, without their check words: ECHO. -/
def echo1 (n : Nat) : List Word := mkWord [(3 + n, 12), (1, 32)] :: 0 :: List.replicate n 0

theorem wit_PacketTakenWhole : (portS Port.init).dev.portOn = true ∧ (portS Port.init).dev.ready = true ∧ (portS Port.init).dev.leaving = false
    ∧ open1.hub.oos = false ∧ Port.init.interp = none ∧ 2 ≤ (echo1 0).length ∧ (echo1 29).length ≤ 31
    ∧ (wordAt (echo1 29) 0).toNat / 2 ^ 12 % 2 ^ 20 = (echo1 29).length + 1 ∧ open1.ctxOpen 1 = true
    ∧ (Port.init.tags.get {} (tagKey 1 0)).check 0 = none ∧ (({ used := true, gen := 15, busy := false } : Tag).check 0) = none
    ∧ opcodeListed 0x00 = true ∧ classOk 0x00 1 = true ∧ (portS Port.init).dev.interprets = true := by decide +kernel

/-- The 3-word ECHO is taken whole. -/
theorem test_packet_taken : after (exec (.cmdPortWrite (sealPacket 0 (echo1 0)) .good) (portS Port.init)) (fun t =>
    after (exec .packetCheck t) fun u => u.dev.port.interp == some ⟨sealPacket 0 (echo1 0), 10000000000, 0, []⟩ && u.dev.port.lastGood == 0) = true := by
  decide +kernel

/-- A packet of 3 words as the FIFO holds it: of opcode `op`, context `ctx`, generation `gen`, under number `seq`. -/
def packet (op ctx gen seq : Nat) : List Word := sealPacket seq [mkWord [(3, 12), (ctx, 32), (gen, 40), (op, 56)], 0]
def crcOk (ws : List Word) : Bool :=
  packetCrc ((wordAt ws (ws.length - 1)).toNat / 2 ^ 32) (ws.take (ws.length - 1)) == (wordAt ws (ws.length - 1)).toNat % 2 ^ 32

theorem wit_PacketRefused : (wordAt [(0x2000 : Word)] 0).toNat / 2 ^ 12 % 2 ^ 20 < 3
    ∧ 3 ≤ (packet 0 1 0 0).length ∧ (wordAt (packet 0 1 0 0) 0).toNat / 2 ^ 12 % 2 ^ 20 = (packet 0 1 0 0).length
    ∧ crcOk [0x3000, 0, 0] = false ∧ crcOk (packet 0 1 0 1) = true ∧ crcOk (packet 0 2 0 0) = true ∧ open1.ctxOpen 2 = false
    ∧ crcOk (packet 0 1 1 0) = true ∧ (1 : Nat) ≠ (1 + 1) % 16 ∧ crcOk (packet 0xFF 1 0 0) = true ∧ opcodeListed 0xFF = false
    ∧ crcOk (packet 0x04 1 0 0) = true ∧ opcodeListed 0x04 = true ∧ classOk 0x04 1 = false := by decide +kernel

/-- R223: a tenant's context may not open a tenant. -/
theorem test_denied : after (exec .packetCheck (portS { Port.init with fifo := packet 0x04 1 0 0 })) (fun t =>
    t.dev.port.interp == none && t.dev.port.lastGood == 0 && (wordAt (t.dev.port.replies.getD 0 []) 1).fld 63 48 == 0x0400) = true := by
  decide +kernel

theorem wit_PortResyncResult : (0xA501000000000000 : Word).toNat / 2 ^ 56 = 0xA5 ∧ (0xA501000000000000 : Word).getLsbD 48 = true
    ∧ (0xA5010000FFFFFFFF : Word).toNat % 2 ^ 32 = 2 ^ 32 - 1
    ∧ ({ portS port208 with pending := [.cmdPortWrite [0] .good, .portResyncCmd 0xA501000000000000] } : State).pending
        = .cmdPortWrite [0] .good :: .portResyncCmd 0xA501000000000000 :: [] := by decide +kernel

def replyS (rpos : Nat) (rlast : Option (List Word)) : State := portS { Port.init with replies := [[1, 2, 3, 4]], rpos := rpos, rlast := rlast }

theorem wit_ReplyReadResult : Port.init.replies = [] ∧ (replyS 2 none).dev.port.rpos + 1 < [1, 2, 3, 4].length
    ∧ [1, 2, 3, 4].length = (replyS 3 none).dev.port.rpos + 1 ∧ (0xA502000000000000 : Word).getLsbD 49 = true
    ∧ (0xA502000000000000 : Word).toNat / 2 ^ 56 = 0xA5 ∧ (replyS 0 (some [9])).dev.port.rlast = some [9]
    ∧ (0xA402000000000000 : Word).toNat / 2 ^ 56 ≠ 0xA5 ∧ 8 < (9 : BitVec 4).toNat ∧ 2 < [1, 2, 3, 4].length := by decide +kernel

/-- R211: a rewind between replies puts the last one back. -/
theorem test_rewind : after (exec (.replyRewind 0xA502000000000000) (replyS 0 (some [9]))) (fun t => t.dev.port.replies == [[9], [1, 2, 3, 4]])
    = true := by decide +kernel

theorem wit_PortRegisterResult : Port.init.cause = 0 ∧ Port.init.msixPend = 0 ∧ ({ Port.init with cause := 0x80 } : Port).cause = (1 : BitVec 8) <<< 7
    ∧ Port.init.mask.getLsbD 7 = true ∧ (0x7F : Word).getLsbD 7 = false ∧ base.aon.bootSel = false
    ∧ (SMap.get 0 ([] : SMap Byte) (16 * 7 + 12)).getLsbD 0 = false ∧ (0x3FF8 : BitVec 16).toNat % 8 = 0 ∧ 0x407F < (0x4080 : BitVec 16).toNat
    ∧ (0x0212 : BitVec 16).toNat % 4 ≠ 0 := by decide +kernel

/-- R216: an unmasked vector's message is held back by the function mask and by Bus Master Enable. -/
theorem test_vector : after (exec (.intMaskWrite 0x7F) (portS { Port.init with cause := 0x80, msix := [] })) (fun t =>
    t.dev.port.msixPend == 0x80 && t.dev.port.msixSent == [])
      && after (exec (.intMaskWrite 0x7F) (portS { Port.init with cause := 0x80, msix := [], busMaster := true })) (fun t =>
        t.dev.port.msixPend == 0 && t.dev.port.msixSent == [7]) = true := by decide +kernel

theorem wit_HostRowActsOnItsPacket : Instr.echo.hostOp = some 0x00 ∧ base.port.interp = none ∧ (pkt 0x7F []).id.op ≠ 0x00
    ∧ ({ base with hub := { base.hub with stewards := [(0, { Stew.init with lost := true })] } } : Device).interprets = false
    ∧ (Holding base (pkt 0x7F [])).serves 0x7F (pkt 0x7F []) ∧ ((pkt 0x7F [] 1).w 0).toNat % 2 ^ 12 ≠ 0 := by
  unfold State.serves State.holds; decide +kernel

theorem wit_EchoResult : (Holding base (pkt 0x00 [])).serves 0x00 (pkt 0x00 []) ∧ 3 ≤ (pkt 0x00 []).words.length
    ∧ (pkt 0x00 (List.replicate 1024 5)).words.length ≤ 1027 ∧ 1027 < (pkt 0x00 (List.replicate 1025 5)).words.length
    ∧ (pkt 0x00 []).w 1 = 0 ∧ ((pkt 0x00 []).w 0).toNat % 2 ^ 12 = 0 ∧ (Holding base (pkt 0x00 [])).dev.port.interp.isSome = true := by
  unfold State.serves State.holds; decide +kernel

/-- R227: the words come back from reply word 3 on. -/
theorem test_echo : after (exec .echo (Holding base (pkt 0x00 [7, 8]))) (fun t =>
    ((t.dev.port.replies.getD 0 []).drop 3).take 2 == [7, 8] && t.dev.port.interp == none) = true := by decide +kernel

/-! ### Host commands -/

def liveA : Device := { open1 with ten := { open1.ten with allocs := [(0, some allocA)] } }
/-- The handle of `allocA`: slot 0, generation 1. -/
def hA : Word := 0x01000000

theorem wit_StatusCommandResult : (Holding open1 (pkt 0x01 [])).serves 0x01 (pkt 0x01 []) ∧ (pkt 0x01 []).words.length = 3
    ∧ (Holding open1 (pkt 0x02 [0, 0])).serves 0x02 (pkt 0x02 [0, 0]) ∧ (pkt 0x02 [0, 0]).words.length = 5
    ∧ (pkt 0x02 [0xF01, 0]).w 2 = BitVec.ofNat 64 (1 + 15 * 2 ^ 8) ∧ open1.ten.state ≠ .closed
    ∧ (({ open1 with parts := [(15, { Part.init with defined := true })] } : Device).part 15).defined = true
    ∧ (open1.part 15).defined = false ∧ liveA.byHandle hA = some allocA ∧ hA.toNat / 2 ^ 16 % 2 ^ 8 = 0 ∧ open1.byHandle hA = none
    ∧ ({ open1 with ten := { open1.ten with weaves := [(0, some planW)] } } : Device).weaveByHandle 0 = some planW
    ∧ base.ten.state = .closed := by
  unfold State.serves State.holds; decide +kernel

/-- A published point of P-384, its base point, as KIN_ENROL carries it. -/
def basePoint : List Word :=
  [0x37058BBE22CA87AA, 0x74AD20F31EC7B18E, 0x989BA78B623B1D6E, 0x382A5482E041F759, 0x6C2955BF5DF20255, 0xB70A7672385E543A,
   0x6F2C26964ADE1736, 0x29DC9292BF989E5D, 0x7C149A28BD1DF4F8, 0xC0B8F0B51331DAE9, 0x9D817E1DCEB1600A, 0x5F0EEA907C1D437A]
/-- OWNER on a device without an owner key. -/
def enrol0 : Packet := pkt 0x78 ([0, 0] ++ basePoint ++ List.replicate 18 0)
def entropic : Device := { base with sec := { base.sec with entropyReady := true } }
/-- A TENANT_OPEN packet of tenant 7 with an authorisation block of 13 words, COUNTER 1. -/
def open7 : Packet := pkt 0x04 ([0x0000000D00000007, 1] ++ List.replicate 12 1)

/-- TENANT_OPEN: but for the signature, whose message holds the serial number, an opaque constant. -/
theorem wit_TenantOpen : (Holding entropic open7).serves 0x04 open7 ∧ open7.words.length = 17 ∧ open7.w 2 = BitVec.ofNat 64 (7 + 13 * 2 ^ 32)
    ∧ entropic.sec.entropyReady = true ∧ entropic.pwr.state ≠ .listen ∧ entropic.ten.state = .closed
    ∧ (∀ w ∈ entropic.peat.waits, w.ready entropic.peat = false) ∧ entropic.opening = false
    ∧ ({ entropic.keyStore with owner := some p384G } : KsWrite).counter < (wordAt (open7.words.drop 3) 0).toNat := by
  unfold State.serves State.holds; decide +kernel

theorem wit_KinEnrol : (Holding entropic enrol0).serves 0x78 enrol0 ∧ enrol0.words.length = 35 ∧ (enrol0.w 2).toNat = 0 ∧ enrol0.w 3 = 0
    ∧ ((enrol0.words.drop 16).take 5).all (· == 0) = true ∧ entropic.keyStore.owner = none ∧ ((enrol0.words.drop 21).take 13).all (· == 0) = true
    ∧ ecOnCurve (pointOf (wordsBytes ((enrol0.words.drop 4).take 12))).1 (pointOf (wordsBytes ((enrol0.words.drop 4).take 12))).2 = true
    ∧ (entropic.keyStore.enrol 0 0 p384G [] 0).isSome = true := by
  unfold State.serves State.holds; decide +kernel

/-- R435: the first owner key needs no authorisation; its write waits for both copies of the key store. -/
theorem test_first_owner : after (exec .kinEnrol (Holding entropic enrol0)) (fun t =>
    t.dev.peat.waits.length == 1 && t.dev.port.replies == []) = true := by decide +kernel

def scrubbing : Device := { base with ten := { base.ten with state := .scrubbing } }

theorem wit_TenantCommandResult : (Holding open1 (pkt 0x05 [7])).serves 0x05 (pkt 0x05 [7]) ∧ (pkt 0x05 [7]).w 2 = BitVec.ofNat 64 open1.ten.id
    ∧ open1.tenantBusy = false ∧ scrubbing.scrubRuns = true ∧ base.scrubRuns = false
    ∧ (Holding open1 (pkt 0x06 [255])).serves 0x06 (pkt 0x06 [255]) ∧ (pkt 0x06 [255]).id.ctx ≠ 255 ∧ open1.ten.contexts.get false 255 = false
    ∧ (Holding open1 (pkt 0x07 [1])).serves 0x07 (pkt 0x07 [1]) ∧ open1.ten.contexts.get false 1 = true ∧ open1.ctxBusy 1 = false := by
  unfold State.serves State.holds; decide +kernel

theorem test_tenant_close : after (exec .tenantClose (Holding open1 (pkt 0x05 [7]))) (fun t =>
    t.dev.ten.state == .scrubbing && t.dev.ten.key == none && t.dev.port.replies == []) = true := by decide +kernel

def secS (x : Sec) : State := at_ { base with sec := x }
def sec0 : Sec := base.sec

theorem wit_EntropyResult : (Holding entropic (pkt 0x79 [512])).serves 0x79 (pkt 0x79 [512]) ∧ (pkt 0x79 [512]).words.length = 4
    ∧ (Holding base (pkt 0x79 [1])).serves 0x79 (pkt 0x79 [1]) ∧ sec0.entropyReady = false
    ∧ ({ sec0 with startAt := some (10000000000 - 4096000) } : Sec).startAt = some (10000000000 - 4096000)
    ∧ (10000000000 - 4096000) + 4096000 ≤ 10000000000 ∧ 10000000000 < (10000000000 - 4095999) + 4096000
    ∧ sec0.seeded = false ∧ sec0.fails < 2 ∧ 2 ≤ ({ sec0 with fails := 2 } : Sec).fails
    ∧ ({ sec0 with failed := true, failedAt := 9000000000 } : Sec).failedAt + 1000000000 ≤ 10000000000 ∧ sec0.failed = false
    ∧ ({ sec0 with entropyReady := true, reseedAt := 9999000000 } : Sec).reseedAt + 1000000 ≤ 10000000000
    ∧ 10000000000 < ({ sec0 with reseedAt := 9999000001 } : Sec).reseedAt + 1000000 := by
  unfold State.serves State.holds; decide +kernel

/-! ### Memory commands -/

/-- A half with one rank set in service, of 65,536 pages. -/
def roomy : Device := { open1 with dram := { open1.dram with rankPages := 65536, trained := true
                                                             halves := [(0, { HalfDram.init with ranks := [(0, .service)] })] } }
def roomyA : Device := { roomy with ten := { roomy.ten with allocs := [(0, some allocA)] } }
/-- `allocA` with other flags, or in other circumstances. -/
def asA (a : Alloc) : Device := { roomy with ten := { roomy.ten with allocs := [(0, some a)] } }
def scrubA : Alloc := { allocA with flags := 1 <<< 15 }

theorem wit_AllocFreeResult : (Holding roomyA (pkt 0x10 [16384, 0])).serves 0x10 (pkt 0x10 [16384, 0])
    ∧ (pkt 0x10 [16384, 0]).words.length = 5 ∧ flagsBad 0 16384 true = false ∧ flagsBad 0 4194302 true = false ∧ flagsBad 0 4194303 true = true
    ∧ roomyA.homeOf 0 16384 = some false ∧ freeRun roomyA.allocs 16384 = some 6 ∧ roomyA.allocs.length < 65536 ∧ flagPin 0 = false
    ∧ roomyA.framesUsed 0 + 768 ≤ 768
    ∧ (Holding roomyA (pkt 0x11 [hA])).serves 0x11 (pkt 0x11 [hA]) ∧ roomyA.byHandle hA = some allocA ∧ roomyA.isAttached 0 = false
    ∧ allocA.plan = none ∧ allocA.migrating = none ∧ roomyA.isSource 0 = false ∧ flagScrub allocA.flags = false ∧ flagScrub scrubA.flags = true
    ∧ roomy.byHandle hA = none
    ∧ (asA { scrubA with freeing := some (pkt 0x11 [hA]).id }).alloc? (0 : BitVec 16).toNat = some { scrubA with freeing := some (pkt 0x11 [hA]).id }
    ∧ (asA scrubA).asking (.zero 0) = false
    ∧ ({ asA scrubA with arb := ⟨[⟨.memPort, 0, 0, 1, 0, none, ⟨none, none, .zero 0⟩, [], none⟩], [], 1⟩ } : Device).asking (.zero 0) = true
    ∧ (Holding (asA { scrubA with freeing := some (pkt 0x11 [hA]).id }) (pkt 0x11 [hA])).owes (pkt 0x11 [hA]).id := by
  unfold State.serves State.holds State.owes; decide +kernel

/-- R165: the lowest run of free pages is taken, a guard page after each allocation. -/
theorem test_alloc : after (exec .alloc (Holding roomyA (pkt 0x10 [1, 0]))) (fun t =>
    (t.dev.alloc? 1).map (·.p0) == some 1 && (wordAt (t.dev.port.replies.getD 0 []) 1).fld 63 48 == 0) = true := by decide +kernel

/-- A page at home in peat that cannot be read, which a PUT of one word would have to stage. -/
def lostPage : Device := { roomyA with mem := { roomyA.mem with poison := [(4, true)] } }
theorem wit_PutGetResult_unread : roomyA.stageBad { allocA with peat := true } 131056 16 [4] = none
    ∧ lostPage.stageBad { allocA with peat := true } 131056 16 [4] = some (.poison 65536)
    ∧ (allocA.pagesOf 131064 8).any (fun pg => roomyA.filling pg (rangeFrom 511 1)) = false
    ∧ ({ roomyA with mem := { roomyA.mem with fills := [⟨false, 4 * 512 + 511, 1, 1, []⟩] } } : Device).filling 4 (rangeFrom 511 1) = true := by
  decide +kernel

/-- The last two words of `allocA`; one word more does not fit. -/
theorem wit_PutGetResult : (Holding roomyA (pkt 0x12 [hA, 131056, 1, 2])).serves 0x12 (pkt 0x12 [hA, 131056, 1, 2])
    ∧ (pkt 0x12 [hA, 131056, 1, 2]).words.length = 5 + 2 ∧ ((pkt 0x12 [hA, 131056, 1, 2]).w 3).toNat + 8 * 2 ≤ allocA.bytes
    ∧ allocA.bytes < 131056 + 8 * 3 ∧ roomyA.isSource (handleSlot hA) = false ∧ roomyA.staged 0 + 0 ≤ 512
    ∧ covers { allocA with peat := true } 0 65536 3 = true
    ∧ (Holding roomyA (pkt 0x13 [hA, 131064, 1])).serves 0x13 (pkt 0x13 [hA, 131064, 1]) ∧ roomyA.firstBad allocA 131064 8 = none
    ∧ ({ roomyA with mem := { roomyA.mem with poison := [(4, true)] } } : Device).firstBad allocA 131064 8 = some (.poison 130944)
    ∧ (pkt 0x13 [hA, 131064, 2]).w 4 = BitVec.ofNat 64 2 ∧ allocA.bytes < 131064 + 16 := by
  unfold State.serves State.holds; decide +kernel

/-- R234, R8: the first byte stored is the least significant of the first word. -/
theorem test_put : after (exec .put (Holding roomyA (pkt 0x12 [hA, 8, 0x0102]))) (fun t =>
    t.dev.mem.bytes == [(3 * 65536 + 8, 2), (3 * 65536 + 9, 1)]) = true := by decide +kernel

def readOnlyA : Alloc := { allocA with flags := 1 <<< 14 }

theorem wit_FlushMigrateResult : (Holding roomyA (pkt 0x14 [hA])).serves 0x14 (pkt 0x14 [hA]) ∧ roomyA.dirtyOf allocA = []
    ∧ ({ roomyA with mem := { roomyA.mem with dirtyPages := [(4, true)] } } : Device).dirtyOf allocA = [4]
    ∧ (Holding (asA readOnlyA) (pkt 0x15 [hA, 1])).serves 0x15 (pkt 0x15 [hA, 1]) ∧ flagReadOnly readOnlyA.flags = true
    ∧ flagReadOnly allocA.flags = false ∧ (asA readOnlyA).peatRoom 2 = true ∧ (asA readOnlyA).dramRoom 0 (2 * 65536) = true
    ∧ (asA readOnlyA).dramRoom 0 (2 * 640) = true
    ∧ (Holding (asA { allocA with flushes := [([3, 4], (pkt 0x14 [hA]).id)] }) (pkt 0x14 [hA])).owes (pkt 0x14 [hA]).id
    ∧ (asA { readOnlyA with migrating := some (true, (pkt 0x15 [hA, 1]).id) }).writtenPages readOnlyA = [] := by
  unfold State.serves State.holds State.owes; decide +kernel

/-- Page 3 stored as peat page 900; its record not yet committed; a transfer to its home still asked. -/
def homeD (tail : List (Nat × JRec)) (rs : List Req) : Device := { asA { allocA with peat := true } with
  peat := { base.peat with cells := [(3, some (900, 1))], tail := tail }, arb := ⟨rs, [], 1⟩ }
theorem wit_FlushMigrateResult_home : (homeD [] []).asking (.home 0) = false
    ∧ (homeD [] [⟨.mereSlice, 0, 0, 1, 0, none, ⟨none, none, .home 0⟩, [], none⟩]).asking (.home 0) = true
    ∧ ((homeD [] []).peat.cells.get none 3).isSome = true ∧ (homeD [] []).storedAll 0 [3] = true ∧ base.storedAll 0 [3] = false
    ∧ (homeD [] []).peat.uncommitted ((homeD [] []).peat.cellLpns [3]) = false
    ∧ (homeD [(0, [0, 900, 0, 0])] []).peat.uncommitted [900] = true
    ∧ (homeD [] []).peat.appended ≤ (homeD [] []).peat.committed ∧ base.peat.cellsIn 3 2 = [] := by decide +kernel

/-- R175: page 4 is at home when FLUSH is done, page 3, written since, is not. -/
theorem test_flush_done_rewritten :
    let d := asA { allocA with flushes := [([3, 4], (pkt 0x14 [hA]).id)] }
    let s := Holding { d with mem := { d.mem with dirtyPages := [(3, true), (4, true)], rewritten := [(3, true)] } } (pkt 0x14 [hA])
    ∃ t, exec (.flushDone (BitVec.ofNat 16 (handleSlot hA))) s = .next t ∧ t.dev.mem.dirtyPages = [(3, true)] :=
  ⟨_, rfl, by decide +kernel⟩

/-! ### Weaves -/

/-- The cells of bytes laid from key `k`, in canonical form. -/
def cells : Nat → List Byte → SMap Byte
  | _, [] => []
  | k, b :: bs => if b = 0 then cells (k + 1) bs else (k, b) :: cells (k + 1) bs

def padTo (n : Nat) (bs : List Byte) : List Byte := bs ++ List.replicate (n - bs.length) 0

/-- An image of 768 bytes: image 2 of kin set 9, one core descriptor, one entry, no allocation, no content page. -/
def imgBytes : List Byte :=
  padTo 128 (wordsBytes [0x57E58840, 2, 9, 768, 128, 192, 0x10001, 256, 88, 384, 0, 0, 640])
    -- RFC 3394, 4.6: the key of 32 bytes wrapped under 00, 01 … 1F.
    ++ padTo 64 (beBytes 40 0x28C9F404C4B810F4CBCCB35CFB87F8263F5786E2D80ED326CBC7F0E71A99F43BFB988B9B7A02DD21)
    ++ padTo 64 (wordsBytes [0, 512, 128, 64])
    ++ padTo 128 (wordsBytes [1, 1])
    ++ padTo 256 [32]
/-- r and s of the signature: the SHA-384 of those 640 bytes. -/
def imgSig : Nat := 0x22767c55e402fcfcedab7a3faa2c27863a7f38c1b74ca76a4b6e575accccfdffd7121a423588993314afb85fe5bac11f
/-- An owner key under which (r, s) = (e, e) verifies: the point of abscissa e, less the base point. -/
def imgOwner : Nat × Nat :=
  (0xe9084934ee24c299ceaaf4f0c9cafea1b7c7f45923f006944b6ddc79b2122b19e1122192f12ec6740e1417a8644b4c79,
   0x752459608e382c307cd68c856c21016c72bd5b335a399802bc5097d69a58989044689cc9a12760654c42e8c318ee4809)
def imgAll : List Byte := imgBytes ++ padTo 128 (beBytes 48 imgSig ++ beBytes 48 imgSig)

/-- `allocA` holds the image; its owner and its kin set are enrolled. -/
def imaged : Device := { roomyA with
  mem := { roomyA.mem with bytes := cells (3 * 65536) imgAll }
  sec := { roomyA.sec with ownerKey := some imgOwner, kin := [(9, 0x000102030405060708090A0B0C0D0E0F101112131415161718191A1B1C1D1E1F)] } }


theorem cells_get : ∀ (bs : List Byte) (k i : Nat), SMap.get 0 (cells k bs) (k + i) = bs.getD i 0 ∧ ∀ j < k, SMap.get 0 (cells k bs) j = 0
  | [], k, i => by simp [cells, SMap.get]
  | b :: bs, k, i => by
    have ih := fun i => cells_get bs (k + 1) i
    have hk : SMap.get 0 (cells (k + 1) bs) k = 0 := (ih 0).2 k (by omega)
    refine ⟨?_, fun j hj => ?_⟩
    · cases i with
      | zero => by_cases hb : b = 0 <;> simp_all [cells, SMap.get]
      | succ i =>
        have h := (ih i).1
        rw [show k + 1 + i = k + (i + 1) by omega] at h
        have hi : k ≠ k + (i + 1) := by omega
        rw [cells]; split
        · exact h
        · rw [SMap.get, if_neg hi]; exact h
    · have h := (ih 0).2 j (by omega)
      have hj : k ≠ j := by omega
      rw [cells]; split
      · exact h
      · rw [SMap.get, if_neg hj]; exact h

theorem cells_read (m : SMap Byte) : ∀ (n k : Nat) (bs : List Byte), (∀ i, m.get 0 (k + i) = bs.getD i 0) → n ≤ bs.length →
    m.getList 0 k n = bs.take n
  | 0, _, _, _, _ => rfl
  | n + 1, k, [], _, hn => by simp at hn
  | n + 1, k, b :: bs, h, hn => by
    have h0 := h 0
    have ih := cells_read m n (k + 1) bs (fun i => by have := h (i + 1); rwa [show k + 1 + i = k + (i + 1) by omega])
      (by simpa using hn)
    rw [Nat.add_zero] at h0
    rw [SMap.getList, h0, ih]; rfl

theorem img_length : imgAll.length = 768 := by decide +kernel
theorem img_read (n : Nat) (h : n ≤ 768) : imaged.readBytes allocA 0 n = imgAll.take n :=
  cells_read _ _ _ _ (fun i => (cells_get imgAll _ i).1) (img_length ▸ h)

theorem img_ok : (imgHdr (imgAll.take 128)).ok (imgAll.take 128) 131072 = true := by
  have h : decide (leAt (imgAll.take 128) 4 2 ≤ (Config.versions.extractLsb' 16 16).toNat) = true := by
    rw [show leAt (imgAll.take 128) 4 2 = 0 by decide +kernel]; simp
  unfold ImgHdr.ok
  rw [h]
  decide +kernel

/-- WEAVE_LOAD: an image that can be read, well formed, of a kin set that is not enrolled. Where it is enrolled the same image
parses and its (empty) content pages open; its key unwrap is an AES computation beyond the kernel's reach, and the signature's
SHA-384 near it: both were evaluated to be good outside it. -/
theorem wit_WeaveLoad : (Holding imaged (pkt 0x20 [0, hA])).serves 0x20 (pkt 0x20 [0, hA]) ∧ (pkt 0x20 [0, hA]).words.length = 5
    ∧ imaged.byHandle hA = some allocA ∧ imaged.weaves.length < 16
    ∧ imaged.firstBad allocA 0 128 = none ∧ (imgHdr (imaged.readBytes allocA 0 128)).ok (imaged.readBytes allocA 0 128) allocA.bytes = true
    ∧ (imgHdr (imaged.readBytes allocA 0 128)).length = 768 ∧ imaged.firstBad allocA 0 768 = none
    ∧ contentKey [] (imgHdr imgAll) imgAll = none ∧ (parseWeave (imgHdr imgAll) imgAll).isSome = true
    ∧ imgContents (imgHdr imgAll) imgAll = [] ∧ (imgHdr imgAll).padsOk imgAll = true ∧ tagsOk (imgHdr imgAll) [] imgAll = true := by
  rw [img_read 128 (by decide)]
  refine ⟨?_, ?_, ?_, ?_, ?_, img_ok, ?_⟩
  · unfold State.serves State.holds; decide +kernel
  all_goals decide +kernel

/-- A weave with a RUN entry of two argument words, a class (of decisions, too) and a serving class, all on core 0. -/
def tinyW : Weave :=
  { planW with
    bound := some 2
    sections := [⟨0, 0, 0x40, 0x80, []⟩]
    entries := [⟨0x100, 2, 0, 0, 0, []⟩, ⟨0x100, 8, 1, 0, 0, []⟩, ⟨0x100, 8, 2, 0, 0, []⟩, ⟨0x100, 8, 3, 0, 0, []⟩]
    classes := [⟨0, true, 1, 1024, 1025, 1, 2, 4, 96, 32, 2, 2⟩]
    serving := some ⟨3, 1, 8, 4, 2, 512, 2, 0, 0, 0, 1, 0⟩
    wcet := List.replicate 4 ⟨1000, 100, 0, 0, []⟩ }
/-- It is bound to partition 2. -/
def bound2 : Device := { roomy with
  ten := { roomy.ten with weaves := [(0, some tinyW)] }
  parts := [(2, { Part.init with defined := true, bundles := 1, weave := some 0 })] }
/-- It is loaded, and partition 2 is free to take it. -/
def looseW : Weave := { tinyW with bound := none, planSlots := [] }
def loose2 : Device := { roomy with
  ten := { roomy.ten with weaves := [(0, some looseW)] }
  parts := [(2, { Part.init with defined := true, bundles := 1 })] }

theorem wit_WeaveCommandResult : (Holding loose2 (pkt 0x21 [0, 2])).serves 0x21 (pkt 0x21 [0, 2]) ∧ loose2.weaveByHandle 0 = some looseW
    ∧ (pkt 0x21 [0, 2]).w 3 = BitVec.ofNat 64 2 ∧ looseW.attach = 0 ∧ (loose2.part 2).defined = true ∧ (loose2.part 2).weave = none
    ∧ (loose2.part 2).bundles = looseW.bundles ∧ looseW.compat = (loose2.part 2).compat ∧ loose2.tableNames 0 = false
    ∧ loose2.servingWeave = none ∧ loose2.framesFit looseW 0 = true ∧ loose2.framesFit looseW 1 = true
    ∧ looseW.knots ≤ (loose2.freeKnots looseW.knots).length ∧ (loose2.makePlan 10000000000 0 looseW.allocs).isSome = true
    ∧ (Holding bound2 (pkt 0x22 [0, 1])).serves 0x22 (pkt 0x22 [0, 1]) ∧ (Holding bound2 (pkt 0x22 [0, 0])).serves 0x22 (pkt 0x22 [0, 0])
    ∧ bound2.tableNames 0 = false ∧ bound2.weaveBusy 0 tinyW = false ∧ bound2.weaveByHandle 0 = some tinyW := by
  unfold State.serves State.holds; decide +kernel

theorem test_weave_bind : after (exec .weaveBind (Holding loose2 (pkt 0x21 [0, 2]))) (fun t => (t.dev.part 2).weave == some 0) = true := by
  decide +kernel
theorem test_weave_drop : after (exec .weaveDrop (Holding bound2 (pkt 0x22 [0, 1]))) (fun t =>
    (t.dev.part 2).weave == none && t.dev.weave? 0 == none) = true := by decide +kernel

/-! ### Work -/

/-- A packet with its word 1, the due asked, set. -/
def pktDue (op due : Nat) (ps : List Word) (flags : Nat := 0) : Packet :=
  ⟨(pkt op ps flags).words.set 1 (BitVec.ofNat 64 due), 0, 0, []⟩

/-- The item that RUN makes of packet `p`. -/
def runItem (p : Packet) : Item :=
  (bound2.part 2).newItem .run 0 0 1100 0 false p.tight false [⟨p.id, p.tAdmit, 0, (p.words.drop 3).take (p.words.length - 4), 0, 1, 0, false, false⟩]
def runP : Packet := pkt 0x30 [0, 7, 8]

theorem wit_WorkCommandResult : (Holding bound2 runP).holds 0x30 runP ∧ bound2.weaveByHandle 0 = some tinyW ∧ bound2.workRefused 2 = false
    ∧ bound2.below 2 = false ∧ bound2.memTerm tinyW ⟨1000, 100, 0, 0, []⟩ 1 = (0, false)
    ∧ (bound2.place 10000000000 2 (runItem runP) 0 (bound2.a0 runP 2) 0).1 = true
    ∧ (Holding bound2 (pkt 0x30 [0, 7, 8] 2)).holds 0x30 (pkt 0x30 [0, 7, 8] 2) ∧ (pkt 0x30 [0, 7, 8] 2).tight = false
    -- A due in the past is refused.
    ∧ (Holding bound2 (pktDue 0x30 1 [0])).holds 0x30 (pktDue 0x30 1 [0])
    ∧ (bound2.place 10000000000 2 (runItem (pktDue 0x30 1 [0])) 1 (bound2.a0 runP 2) 0).1 = false := by
  unfold State.holds; decide +kernel

/-- R25 (EXACT is 0, pace 0): the earliest due counts c, the reset and the second run, and A0 of 6 µs. -/
theorem test_run : after (exec .run (Holding bound2 runP)) (fun t =>
    (t.dev.part 2).items.length == 1 && t.dev.port.replies.length == 1) = true := by decide +kernel

def stream5 : Stream := ⟨0, 1024, 0, 0, 0, false, true, 0, 0⟩
def streamD : Device := { bound2 with ten := { bound2.ten with streams := [(5, some stream5)] } }
def stepP : Packet := pkt 0x41 [BitVec.ofNat 64 (5 + 2 * 2 ^ 32), 7, 8]
def decideP : Packet := pkt 0x38 ([5, BitVec.ofNat 64 (96 + 32 * 2 ^ 8 + 8 * 2 ^ 14)] ++ List.replicate (32 + 48) 0)
/-- A step item of stream 6, which a step of stream 5 may join. -/
def step6 : Item := ⟨.cls 0 false, 0, 1, 10000500000, 0, 1500, 1400, 0, 0, false, false, false, false, false,
  [⟨⟨0x41, 1, 0, 0, 0, 0⟩, 0, 6, [], 0, 1, 0, false, false⟩]⟩
def joinD : Device := { streamD with parts := [(2, { streamD.part 2 with items := [step6], nextSeq := 1 })] }

theorem wit_StepResult : (Holding streamD stepP).holds 0x41 stepP ∧ streamD.stream? 5 = some stream5
    ∧ (streamD.streamHome stream5).map (fun y => (y.2.1, y.2.2.stepWords)) = some (2, 2) ∧ stepP.words.length = 4 + 2
    ∧ (Holding streamD decideP).holds 0x38 decideP ∧ decideP.words.length = 5 + 32 + 48 ∧ (decideP.w 3).toNat % 2 ^ 8 = 96
    ∧ (decideP.w 3).toNat / 2 ^ 14 % 2 ^ 4 = 8 ∧ (decideP.w 3).toNat / 2 ^ 8 % 2 ^ 6 = 32
    ∧ latestItem ((streamD.part 2).items.filter fun it => it.joinable (.cls 0 false) 0 false 4 5 0 []) = none
    ∧ latestItem ((joinD.part 2).items.filter fun it => it.joinable (.cls 0 false) 0 false 4 5 0 []) = some step6
    ∧ (joinD.part 2).stepsOf 5 = [] ∧ (Holding joinD stepP).holds 0x41 stepP := by
  unfold State.holds; decide +kernel

theorem test_join : after (exec .streamStep (Holding joinD stepP)) (fun t =>
    (t.dev.part 2).items.map (fun it => it.members.map (·.key)) == [[6, 5]]) = true := by decide +kernel
theorem test_decide : after (exec .decide (Holding streamD decideP)) (fun t =>
    (t.dev.part 2).items.map (fun it => (it.entry, it.members.map (·.top))) == [(2, [8])]) = true := by decide +kernel

theorem wit_StreamOpen : (Holding bound2 (pkt 0x40 [0xFFFFFE, 0])).serves 0x40 (pkt 0x40 [0xFFFFFE, 0])
    ∧ bound2.stream? 0xFFFFFE = none ∧ tinyW.classes[0]?.bind (bound2.freeRow 0) = some (1024, 0)
    ∧ tinyW.classes[0]?.bind (streamD.freeRow 0) = some (1024, 1)
    ∧ (Holding streamD (pkt 0x42 [5])).serves 0x42 (pkt 0x42 [5]) ∧ (streamD.stream? 5).map (·.gen) = some 0
    ∧ (List.range 16).all (fun i => ((streamD.part i).stepsOf 5).isEmpty) = true := by
  unfold State.serves State.holds; decide +kernel

theorem test_stream_close : after (exec .streamClose (Holding streamD (pkt 0x42 [5]))) (fun t => t.dev.stream? 5 == none) = true := by
  decide +kernel

/-! ### Sequences -/

def seq3 : Seqn := { id := 3, phase := 1 }
def seqD (q : Seqn) : Device := { bound2 with ten := { bound2.ten with seqs := [(0, q)] } }
/-- SEQ_FEED of three prompt tokens, two tokens to generate. -/
def feedP : Packet := pkt 0x49 [3, BitVec.ofNat 64 (3 + 2 * 2 ^ 18 + 0xFFFFFFFF * 2 ^ 32), 0x200000001, 3]

theorem wit_SequenceCommandResult : (Holding bound2 (pkt 0x48 [3])).serves 0x48 (pkt 0x48 [3]) ∧ bound2.seqSlot 3 = none
    ∧ (bound2.servingWeave.bind (·.2.serving)).isSome = true ∧ (bound2.seq 0).phase = 0 ∧ ((seqD seq3).seq 1).phase = 0
    ∧ (∀ j < 1, ((seqD seq3).seq j).phase ≠ 0)
    ∧ (Holding (seqD seq3) (pkt 0x4A [3])).serves 0x4A (pkt 0x4A [3]) ∧ (seqD seq3).seqSlot 3 = some 0
    ∧ (Holding (seqD seq3) feedP).holds 0x49 feedP ∧ feedP.words.length = 5 + (3 + 1) / 2 ∧ (feedP.w 3).toNat % 2 ^ 32 = 3 + 2 * 2 ^ 18
    ∧ (feedP.w (feedP.words.length - 2)).toNat < 2 ^ 32 ∧ (seqD seq3).workRefused 2 = false
    ∧ (feedSteps 0 4 3 2).all (fun f => decide (f.kv ≤ 2)) = true
    ∧ (tinyW.serving.any fun x => decide (1 ≤ (seqD seq3).unreservedFrames x false)) = true
    ∧ ((seqD seq3).part 2).allItems.length + (feedSteps 0 4 3 2).length ≤ 1024 := by
  unfold State.serves State.holds; decide +kernel

theorem test_feed : after (exec .seqFeed (Holding (seqD seq3) feedP)) (fun t =>
    (t.dev.part 2).items.map (fun it => it.members.map fun m => (m.count, m.sample)) == [[(3, true)], [(1, true)]]
      && (t.dev.seq 0).prompt == [1, 2, 3] && (t.dev.seq 0).reserved == 1) = true := by decide +kernel

/-- Partition 2 holds the RUN of tag 1; tag 2 is busy with no work. -/
def tagged : Device :=
  let m : Member := ⟨⟨0x30, 1, 0, 0, 0, 0⟩, 0, 0, [], 0, 1, 0, false, false⟩
  { bound2 with
    port := { bound2.port with tags := [(tagKey 0 1, ⟨true, 0, true⟩), (tagKey 0 2, ⟨true, 0, true⟩)] }
    parts := [(2, { bound2.part 2 with items := [{ runItem runP with members := [m] }] })] }
def runningD : Device :=
  { tagged with parts := [(2, { bound2.part 2 with running := ((tagged.part 2).items.head?).map fun it => ⟨it, 0, false, 0⟩ })] }

theorem wit_QueryCancel : (Holding tagged (pkt 0x31 [1])).serves 0x31 (pkt 0x31 [1]) ∧ (Holding tagged (pkt 0x32 [1])).serves 0x32 (pkt 0x32 [1])
    ∧ tagged.outstanding 0 1 0 = true ∧ tagged.outstanding 0 1 1 = false ∧ tagged.outstanding 0 2 0 = true ∧ tagged.workPart 0 1 0 = some 2
    ∧ tagged.workPart 0 2 0 = none ∧ (latestItem ((tagged.part 2).allItems.filter fun it => it.holds 0 1 0)).isSome = true
    ∧ (runningD.part 2).running.any (fun r => r.item.holds 0 1 0 && r.item.kind == .run) = true ∧ runningD.workPart 0 1 0 = some 2
    ∧ (tagged.part 2).running = none ∧ ((tagged.part 2).items.all fun it => it.kind == .run && it.members.length == 1
        && it.members.all fun m => m.of 0 1 0 && m.id.epoch == 0 && m.id.op == 0x30) = true := by
  unfold State.serves State.holds; decide +kernel

theorem test_cancel : after (exec .cancel (Holding tagged (pkt 0x32 [1]))) (fun t =>
    (t.dev.part 2).items == [] && t.dev.port.replies.length == 2) = true := by decide +kernel

/-! ### Items -/

/-- The entry table of core 0 at 0x40: entry 0 starts at 0x200, entry 1 takes no part. -/
def itemPool : SMap Byte := [(0x41, 2), (0x44, 0xFF), (0x45, 0xFF), (0x46, 0xFF), (0x47, 0xFF)]
def itemD : Device := (tagged).setCore 0 { Core.init with pool := itemPool }

theorem wit_ItemResult : itemD.dispatches 2 = true ∧ (itemD.part 2).items.length = 1 ∧ bound2.dispatches 3 = true
    ∧ ((itemD.part 2).items.all fun it => it.kind == .run && !it.waitRaise && it.weave == 0 && it.entry == 0) = true
    ∧ itemD.weave? 0 = some tinyW ∧ tinyW.sections.length = 1 ∧ (itemD.part 2).cores.contains tinyW.control = true
    ∧ (itemD.core 0).run ≠ .faulted ∧ (itemD.core 0).pool.rdLe 0x40 4 ≠ 0xFFFFFFFF ∧ (runningD.dispatches 2) = false := by
  decide +kernel

theorem test_item_dispatch : after (exec (.itemDispatch 2) (at_ itemD)) (fun t =>
    (t.dev.core 0).run == .running && (t.dev.core 0).pc == 0x200 && (t.dev.part 2).items == [] && (t.dev.core 0).g.get 0 2 == 0x100) = true := by
  decide +kernel

/-- Partition 2 runs an item of the kind and the members, core 0 having halted with the block of words at 0x300. -/
def halting (d : Device) (kind : ItemKind) (ms : List Member) (block : List Word) : Device :=
  let it : Item := ⟨kind, 0, 0, 10000000000, 0, 1100, 1100, 0, 0, false, false, false, false, false, ms⟩
  let e := d.setCore 0 { Core.init with part := true, pool := cells 0x300 (wordsBytes block), result := (0x300, block.length) }
  { e with parts := [(2, { d.part 2 with items := [], running := some ⟨it, 9999996333, false, 0⟩ })], port := { d.port with order := [] } }
def runM : Member := ⟨⟨0x30, 1, 0, 0, 0, 0⟩, 0, 0, [], 0, 1, 0, false, false⟩
def stepM : Member := ⟨⟨0x41, 1, 0, 0, 0, 0⟩, 0, 5, [], 0, 1, 0, false, false⟩
def serveM : Member := ⟨⟨0x49, 1, 0, 0, 0, 0⟩, 0, 0, [], 0, 1, 1, true, false⟩
def feeding : Seqn := { seq3 with phase := 2, promptLeft := 0, genLeft := 2, stop := 0xFFFFFFFF, lastToken := 9, pending := true }

theorem wit_ItemComplete : (halting bound2 .run [runM] [7]).allHalted 2 = true ∧ (halting bound2 .run [runM] [7]).weave? 0 = some tinyW
    ∧ ((halting bound2 .run [runM] [7]).part 2).reset = none ∧ (halting bound2 .run [runM] [7]).ready = true
    ∧ ((halting bound2 .run [runM] [7]).core 0).resultBlock = [7] ∧ runM.id.epoch = (halting bound2 .run [runM] [7]).port.epoch
    ∧ ((halting bound2 .run [runM] [7]).part 2).running.map (·.limit) = some 10000000000
    ∧ ((halting bound2 .run [runM] [7]).part 2).running.any (fun r => decide (10000000000 < r.item.d)) = false
    ∧ (halting streamD (.cls 0 false) [stepM] [2, 7, 8]).stream? 5 = some stream5
    ∧ ((halting streamD (.cls 0 false) [stepM] [2, 7, 8]).core 0).resultBlock = [2, 7, 8] ∧ (2 : Word).fld 15 0 = 2
    ∧ ((halting (seqD feeding) .serve [serveM] [11]).core 0).resultBlock = [11] ∧ ((halting (seqD feeding) .serve [serveM] [11]).seq 0) = feeding
    ∧ ((halting (seqD feeding) .serve [serveM] []).core 0).resultBlock = [] ∧ runningD.allHalted 2 = true := by decide +kernel

theorem test_item_complete : after (exec (.itemComplete 2) (at_ (halting bound2 .run [runM] [7]))) (fun t =>
    t.dev.port.replies.map (fun r => wordAt r 3) == [7] && (t.dev.part 2).running.isNone) = true := by decide +kernel
/-- R151: the token sampled is pending, and one is left to generate. -/
theorem test_serving_step : after (exec (.itemComplete 2) (at_ (halting (seqD feeding) .serve [serveM] [11]))) (fun t =>
    (t.dev.seq 0).tokens == [11] && (t.dev.seq 0).genLeft == 1 && (t.dev.seq 0).length == 1) = true := by decide +kernel

def flash0 : Device := { open1 with peat := { open1.peat with mounted := true } }
def opP (k : FlashKind) (since : Nat) : FlashOp := ⟨k, 1, 2, 0, [], since, 0, false, 0⟩
def winD (w : Window) (last : Nat) (q b : List FlashOp) : Device := { flash0 with peat := { flash0.peat with
  queue := if q = [] then [] else [(3, q)], windows := if w = .none then [] else [(3, w)], lastWindow := [(3, some last)]
  busy := b.map fun o => (3, some o) } }

theorem wit_ProgramWindow : (winD .none 9960000000 [opP .program 9990000000] []).flashOn = true
    ∧ ((winD .none 9960000000 [opP .program 9990000000] []).peat.queue.get [] 3).any (fun o => decide (o.since + 10000000 ≤ 10000000000)) = true
    ∧ (winD .none 9960000000 [opP .program 9990000000] []).peat.windows.get .none 3 = .none
    ∧ (winD .none 9960000000 [opP .program 9990000000] []).peat.lastWindow.get none 3 = some 9960000000
    ∧ 10000000000 < 9990000001 + 10000000 ∧ 10000000000 < 9960000001 + 40000000
    ∧ (winD (.pending 0) 0 [] []).windowFits 10000000000 = true ∧ (winD (.pending 0) 0 [] []).peat.windows.get .none 3 = .pending 0
    ∧ (({ winD (.pending 0) 0 [] [] with parts := [(2, { runningD.part 2 with
        running := (runningD.part 2).running.map fun r => { r with item := { r.item with peat := true } } })] } : Device).windowFits 10000000000) = false
    ∧ (winD (.opened 9988000000) 0 [] [opP .program 0]).peat.busy.get none 3 = some (opP .program 0)
    ∧ (winD (.opened 9988000000) 0 [] [opP .erase 0]).peat.busy.get none 3 = some (opP .erase 0) := by decide +kernel

/-! ### Integrity -/

/-- SCAN of all of `allocA` on any unit, its lines 128 bytes apart, CRC-64, folding block numbers from 2^48 − 1 on. -/
def scanP : Packet := pkt 0x68 [BitVec.ofNat 64 (0x01000000 + 1 * 2 ^ 34 + 2 * 2 ^ 36), 0, 65536, 128, 0xFFFFFFFFFFFF]
def scan0 : Scan := ⟨scanP.id, 0, 1, 0, 0, 0, 128, 0, 0⟩
def scanD (x : Scan) (d : Device) : Device := { d with
  hub := { d.hub with scanRun := [(0, some x)] }, port := { d.port with order := [⟨x.id, true, none⟩] } }

theorem wit_ScanResult : (Holding roomyA scanP).holds 0x68 scanP ∧ scanP.words.length = 8 ∧ roomyA.byHandle (scanP.w 2) = some allocA
    ∧ (scanP.w 2).toNat / 2 ^ 32 % 4 = 0 ∧ (scanP.w 2).toNat / 2 ^ 34 % 4 = 1 ∧ (scanP.w 2).toNat / 2 ^ 36 = 2
    ∧ 0 + (65536 / 64 - 1) * 128 + 64 ≤ allocA.bytes ∧ allocA.bytes < 0 + (65536 / 64 - 1) * 128 + 64 + 128 ∧ roomyA.hubServes = true
    ∧ (scanD scan0 roomyA).hub.scanRun.get none 0 = some scan0 ∧ (at_ (scanD scan0 roomyA)).owes scan0.id
    ∧ (scanD scan0 roomyA).alloc? 0 = some allocA ∧ (scanD scan0 roomyA).scanBad allocA scan0 = none ∧ roomy.alloc? 0 = none
    ∧ (({ roomyA with mem := { roomyA.mem with poison := [(3, true)] } } : Device).firstBad allocA (scan0.at_ 0) 64).isSome = true := by
  unfold State.holds State.owes; decide +kernel

/-- R416: the CRC-32C of 32 zero bytes as RFC 3720 (B.4) gives it; a scan of one block answers the block's own. -/
theorem test_scan : crc32c (List.replicate 32 0) = 0x8A9136AA
    ∧ after (exec (.scanComplete false) (at_ (scanD { scan0 with len := 64 } roomyA))) (fun t =>
      t.dev.port.replies.map (fun r => (wordAt r 3, wordAt r 4)) == [(BitVec.ofNat 64 (crc32c (List.replicate 64 0)), 1)]) = true := by
  decide +kernel

def part3 : Device := { base with parts := [(3, { Part.init with defined := true, bundles := 3 })] }
def reset3 (r : Reset) : Device := { base with parts := [(3, { Part.init with defined := true, bundles := 3, reset := some r })] }
def askD (rs : List (List Word)) : Device := { base with
  hub := { base.hub with resetAsk := some (false, ⟨0x7F, 0, 0, 0, 0, 0⟩, some (9990000001, 5)) }, port := { base.port with replies := rs } }

theorem wit_IntegrityCommandResult : 10000000000 / 1000000000 = 10 ∧ ({ base.hub with digEpoch := 10 } : Hub).digEpoch = 10 ∧ base.hub.digEpoch < 10
    ∧ base.hubServes = true ∧ (Holding base (pkt 0x69 [])).serves 0x69 (pkt 0x69 [])
    ∧ (Holding base (pkt 0x7C [BitVec.ofNat 64 (32767 + 65536)])).serves 0x7C (pkt 0x7C [BitVec.ofNat 64 (32767 + 65536)])
    ∧ (Holding base (pkt 0x7E [])).serves 0x7E (pkt 0x7E [])
    ∧ (Holding part3 (pkt 0x7D [3])).holds 0x7D (pkt 0x7D [3]) ∧ (part3.part 3).reset = none ∧ (part3.part 3).defined = true
    ∧ ((reset3 ⟨0, false, 0, []⟩).part 3).reset = some ⟨0, false, 0, []⟩ ∧ (Holding (reset3 ⟨0, false, 0, []⟩) (pkt 0x7D [3])).holds 0x7D (pkt 0x7D [3])
    ∧ (Holding base (pkt 0x7F [0xA5])).serves 0x7F (pkt 0x7F [0xA5]) ∧ (Holding base (pkt 0x7F [0x1A5])).serves 0x7F (pkt 0x7F [0x1A5])
    ∧ base.hub.resetAsk = none ∧ base.ten.state = .closed
    -- The reply of RSEQ 5 not read, 1 ns short of 10 ms; the reply read.
    ∧ ((askD [[0, BitVec.ofNat 64 (5 * 2 ^ 32)]]).port.replies.all fun r => (wordAt r (r.length - 1)).fld 63 32 == 5) = true
    ∧ 10000000000 < 9990000001 + 10000000 ∧ (askD []).ready = true ∧ (askD []).hub.oos = false := by
  unfold State.serves State.holds; decide +kernel

theorem test_dump_get : after (exec .dumpGet (Holding base (pkt 0x7C [BitVec.ofNat 64 (2 * 65536)]))) (fun t =>
    t.dev.port.replies.map List.length == [8]) = true := by decide +kernel
theorem test_device_reset_begin : after (exec .deviceResetBegin (at_ (askD []))) (fun t =>
    t.dev.hub.resetting == some false && t.dev.aon.boot == .trained && t.dev.aon.devResets == [10000000000]) = true := by decide +kernel

/-! ### Compute reset -/

def oneSlot : SlotFail := ⟨1, 3, 0, false⟩
def dead3 : Device := (reset3 ⟨9997500000, false, 0, []⟩).setCore 5 { Core.init with gen := 255, pool := [(7, 1)], g := [(3, 9)] }

theorem wit_ComputeResetResult : (part3.part 3).reset = none ∧ ((reset3 ⟨9997500001, false, 0, []⟩).part 3).reset = some ⟨9997500001, false, 0, []⟩
    ∧ 10000000000 < 9997500001 + 2500000 ∧ 10000000000 < 9998800001 + 1200000 ∧ 9998800000 + 1200000 ≤ 10000000000
    ∧ ((reset3 ⟨9998800000, true, 4, [⟨0x7D, 0, 0, 0, 0, 0⟩]⟩).part 3).reset = some ⟨9998800000, true, 4, [⟨0x7D, 0, 0, 0, 0, 0⟩]⟩
    ∧ oneSlot.bundle.toNat ∈ bundlesOf 3 ∧ oneSlot.slot.val < 4 ∧ oneSlot.poolBad = false ∧ dead3.hub.rowMarked = [] ∧ dead3.hub.rowSpares = []
    ∧ dead3.fab.spareUsed.get false 1 = false ∧ (∀ b ∈ bundlesOf 3, ∀ c < 4, dead3.fab.slotOf b c = c)
    ∧ (at_ { reset3 ⟨9998800000, true, 4, [⟨0x7D, 0, 0, 0, 0, 0⟩]⟩ with
        port := { base.port with order := [⟨⟨0x7D, 0, 0, 0, 0, 0⟩, true, none⟩] } }).owes ⟨0x7D, 0, 0, 0, 0, 0⟩ := by
  unfold State.owes; decide +kernel

theorem test_compute_reset : after (exec (.computeResetComplete 3 [oneSlot]) (at_ dead3)) (fun t =>
    (t.dev.core 5).gen == 0 && (t.dev.core 5).pool == [(7, 1)] && (t.dev.core 5).g == [] && t.dev.fab.slotOf 1 3 == 4) = true := by decide +kernel

/-! ### Stewards -/

def hubS (f : Hub → Hub) (d : Device := base) : Device := { d with hub := f d.hub }
def stewardsD (a b : Stew) : Device := hubS fun h => { h with stewards := [(0, a), (1, b)] }
def beating (t : Nat) : Stew := { Stew.init with beat := t }
def lostStew : Stew := { Stew.init with lost := true, restartAt := some 9000000000 }

theorem wit_StewardResult : (stewardsD (beating 9999750000) (beating 9999750001)).stewardOn 0 = true
    ∧ ((stewardsD (beating 9999750000) (beating 9999750001)).steward 0).lost = false
    ∧ (stewardsD (beating 9999750000) (beating 9999750001)).beatFrom 0 + 250000 ≤ 10000000000
    ∧ 10000000000 < (stewardsD (beating 9999750000) (beating 9999750001)).beatFrom 1 + 250000
    ∧ ((stewardsD lostStew (beating 1)).steward 0).lost = true ∧ (part3.part 3).lowestIn 0 = true ∧ (part3.part 3).lowestIn 1 = false
    ∧ base.hubRuns = true ∧ (stewardsD lostStew lostStew).stewardOn 1 = true
    ∧ (hubS fun h => { h with leaseHeld := true, leaseAt := 9999750001 }).hub.leaseHeld = true ∧ 10000000000 < 9999750001 + 250000
    ∧ (hubS fun h => { h with leaseHeld := true, leaseAt := 9999750000 }).hub.leaseAt + 250000 ≤ 10000000000
    ∧ base.hub.leaseHeld = false ∧ base.hub.leaseEpoch = 0 ∧ base.hub.hubResetAt + 10000000 ≤ 10000000000 ∧ base.stewardOn 1 = true
    ∧ (hubS fun h => { h with units := [(fabricUnitNum .admission, 2)] }).hub.units.get 0 (fabricUnitNum .admission) ≤ (2 : BitVec 48).toNat
    ∧ (1 : BitVec 48).toNat < (hubS fun h => { h with units := [(fabricUnitNum .admission, 2)] }).hub.units.get 0 (fabricUnitNum .admission) := by
  decide +kernel

theorem test_heartbeat_lost : after (exec (.stewardLost false 0) (at_ { stewardsD (beating 9999750000) (beating 9999750001) with parts := part3.parts }))
    (fun t => (t.dev.steward 0).lost && (t.dev.part 3).reset == some ⟨10000000000, true, 0, []⟩) = true := by decide +kernel
theorem test_lease_moves : after (exec (.leaseAcquire true) (at_ base)) (fun t => t.dev.hub.leaseHalf && t.dev.hub.leaseEpoch == 1) = true := by
  decide +kernel

/-! ### Spare parts -/

def rowsAt (l : List Nat) : Device := hubS fun h => { h with rowErrs := [(rowKey .pool 79 3071, l)] }
def dayAgo : Nat := 86400000000000
def laneD (used : Nat) (l : List Nat) : Device :=
  hubS fun h => { h with laneUsed := if used = 0 then [] else [(0, used)], laneFails := if l = [] then [] else [(laneKey 0 63, l)] }

theorem wit_SparePartResult : base.hubRuns = true ∧ ({ base with pwr := { base.pwr with state := .ember } } : Device).hubRuns = false
    ∧ base.devResetCount 10000000000 + 1 < 8
    ∧ 8 ≤ ({ base with aon := { base.aon with devResets := List.replicate 7 9999999999 } } : Device).devResetCount 10000000000 + 1
    ∧ (hubS fun h => { h with laneStopped := [(0, true)] }).hub.laneStopped.get false 0 = true
    ∧ (((laneD 0 (List.replicate 15 9999000000)).hub.laneFails.get [] (laneKey 0 63)).filter
        (fun t => decide (10000000000 ≤ t + 1000000)) ++ [10000000000]).length = 16
    ∧ (((laneD 0 (9998999999 :: List.replicate 14 9999000000)).hub.laneFails.get [] (laneKey 0 63)).filter
        (fun t => decide (10000000000 ≤ t + 1000000)) ++ [10000000000]).length = 15
    ∧ (laneD 1 []).hub.laneUsed.get 0 0 < 2 ∧ 2 ≤ (laneD 2 []).hub.laneUsed.get 0 0
    ∧ (base.gknot 4095).owner = none ∧ (base.gknot 4095).withdrawn = false ∧ (base.gknot 4095).failed = false ∧ base.fab.knotSpares < 512
    ∧ (({ base with fab := { base.fab with gknots := [(4095, { owner := some 15 })] } } : Device).gknot 4095).owner = some 15
    ∧ (((rowsAt [1, 2]).hub.rowErrs.get [] (rowKey .pool 79 3071)).filter (fun t => decide (2 + dayAgo ≤ t + dayAgo)) ++ [2 + dayAgo]).length < 3
    ∧ 3 ≤ (((rowsAt [2, 2]).hub.rowErrs.get [] (rowKey .pool 79 3071)).filter (fun t => decide (2 + dayAgo ≤ t + dayAgo)) ++ [2 + dayAgo]).length
    ∧ (rowsAt []).hub.rowMarked.get 0 (rowKey .pool 79 3071) = 0
    ∧ (hubS fun h => { h with rowMarked := [(rowKey .hub 3 65535, 1)] }).hub.rowMarked.get 0 (rowKey .hub 3 65535) ≠ 0 := by decide +kernel

theorem test_hub_fault : after (exec (.hubFault 2 1) (at_ open1)) (fun t =>
    t.dev.ten.state == .scrubbing && t.dev.ten.key == none && t.dev.hub.dumpNumber == 1) = true := by decide +kernel
theorem test_third_error : after (exec (.sramRowError .pool 79 3071 false [] []) (at_ (rowsAt [2, 2]) (2 + dayAgo))) (fun t =>
    t.dev.hub.rowMarked == [(rowKey .pool 79 3071, 1)]) = true := by decide +kernel

/-- A scan whose reads are not all granted; a mere row of clean lines, one of them in the cache; a row that is not there. -/
theorem wit_asking_mere : (scanD scan0 roomyA).asking (.scan 0) = false
    ∧ ({ roomyA with arb := ⟨[⟨.mereSlice, 0, 18, 3, 0, none, ⟨none, none, .scan 0⟩, [], none⟩], [], 1⟩ } : Device).asking (.scan 0) = true
    ∧ (∀ l ∈ [7], roomyA.mem.dirty.get false l = false ∧ roomyA.mem.full.get false (l / 512) = false) ∧ ¬ (80 < 80) ∧ 6143 < 6144 := by
  decide +kernel

/-- R404: the lines of the row leave the cache of their half alone. -/
theorem test_mere_row : after (exec (.sramRowError .mere 7 6143 true [7] [])
    (at_ { base with mem := { base.mem with cached := [(false, 7), (true, 7), (true, 8)] } })) (fun t =>
      t.dev.mem.cached == [(false, 7), (true, 8)]) = true := by decide +kernel

/-! ### Paces and rails -/

/-- A rail that stands at a voltage. -/
def railAt (mv : Nat) : RailSt := { RailSt.init with mv := mv, cmd := mv }
/-- Every domain on at pace `p`. -/
def allOn (p : Nat) : SMap DomSt := (List.range 35).map fun i => (i, ⟨p, 6, true, [], none⟩)
def paced (d : Device) (rail0 : RailSt := railAt 800) (doms : SMap DomSt := allOn 3) : Device :=
  { d with pace := { d.pace with doms := doms, rails := [(0, rail0), (1, railAt 800), (2, railAt 800)] } }
def moving (raising : Bool) (targets : List (Nat × Nat)) (mv : Nat) (ph : RailPhase) (since : Nat) : RailSt :=
  { railAt 800 with trans := some ⟨raising, targets, [], mv, ph, since⟩ }

/-- Domain 0 alone, its monitor 1 with two low samples, the last 1 µs ago; and timed at the rail's maximum. -/
def mon1 : DomSt := ⟨3, 6, true, [(1, ⟨2, some 9999999000, false⟩)], none⟩
def timed0 : DomSt := ⟨3, 6, true, [(1, ⟨0, some 9999999001, false⟩)], some 9999950000⟩
def dom3 : DomSt := ⟨3, 6, true, [], none⟩

theorem wit_PaceSequencerResult : (base.dom 34).on = false ∧ ((paced base).dom 0).on = true ∧ ((paced base).dom 0).atMaxSince = none
    ∧ (mon1.monitors.get {} 1).lows = 2 ∧ (mon1.monitors.get {} 0).lows < 2 ∧ (mon1.monitors.get {} 1).at_ = some 9999999000
    ∧ 9999999000 + 1000 ≤ 10000000000 ∧ ¬ (9999999001 + 1000 ≤ 10000000000)
    ∧ (timed0.sample 0 ⟨0, some 10000000000, false⟩).steady = true
    ∧ (∀ j ∈ domainsOn (railOf 0), j ≠ 0 → ((paced base (railAt 900) [(0, timed0)]).dom j).atMaxSince = none)
    ∧ ((paced base).rail 0).mv < 900 ∧ 900 ≤ ((paced base (railAt 900)).rail 0).mv
    ∧ ((paced base (railAt 900) [(0, timed0)]).dom 0).atMaxSince = some 9999950000
    ∧ 9999950000 + 50000 ≤ 10000000000 ∧ 10000000000 < 9999950001 + 50000 ∧ ((paced base).rail 0).alarm = false
    -- DOMAIN_PACE_ACK at 2 µs, of one domain and of the last; one nanosecond later it is late.
    ∧ ((paced base (moving false [(0, 2), (1, 2)] 800 (.acks [0, 1]) 9999998000)).rail 0).trans
        = some ⟨false, [(0, 2), (1, 2)], [], 800, .acks [0, 1], 9999998000⟩
    ∧ 10000000000 ≤ 9999998000 + 2000 ∧ 9999997999 + 2000 < 10000000000 ∧ [0, 1].erase 0 ≠ []
    ∧ ([(0, 2), (1, 2)].find? fun y => y.1 == 0) = some (0, 2) ∧ 1 ∉ [0]
    ∧ ((paced base (moving false [(0, 2)] 800 (.acks [0]) 9999998000) [(0, dom3)]).putPace 0 2).needMv 0 [] 0 ≠ 800 ∧ (paced base).clamped 0 2 = 2
    ∧ (paced base).rail 1 = railAt 800 ∧ 9999998000 + 2000 ≤ 10000000000 ∧ 10000000000 < 9999998001 + 2000
    ∧ ((paced base (moving true [(0, 6)] 850 .settling 9999000000)).rail 0).trans.map (·.phase) = some .settling
    ∧ 9999000000 + 1000000 ≤ 10000000000 ∧ 10000000000 < 9999000001 + 1000000
    ∧ ((paced base (moving false [(0, 2)] 700 .settling 0)).rail 0).held = none
    ∧ ((paced base (moving true [(0, 7)] 850 .settled 9999980000)).rail 0).trans.map (fun t => (t.phase, t.targets)) = some (.settled, [(0, 7)])
    ∧ 9999980000 + 20000 ≤ 10000000000 ∧ 10000000000 < 9999980001 + 20000 ∧ base.pace.boostStart = none
    ∧ ((paced base { RailSt.init with badFrames := 2 }).rail 0).badFrames = 2 ∧ ((paced base { RailSt.init with badFrames := 1 }).rail 0).badFrames < 2 := by
  decide +kernel

/-- R18: after the last acknowledge the voltage write follows; R17: 20 µs after the settling the raised pace is in force. -/
theorem test_pace_ack : after (exec (.domainPaceAck 0) (at_ (paced base (moving false [(0, 2)] 800 (.acks [0]) 9999998000) [(0, dom3)])))
    (fun t => (t.dev.dom 0).pace == 2 && ((t.dev.rail 0).trans.map (·.phase)) == some .settling) = true := by decide +kernel
theorem test_pace_apply : after (exec (.paceApply 0) (at_ (paced base (moving true [(0, 7)] 850 .settled 9999980000))))
    (fun t => (t.dev.dom 0).pace == 7 && t.dev.pace.boostStart == some 10000000000) = true := by decide +kernel

def set7 (i v : Nat) : Packet := pkt 0x61 [BitVec.ofNat 64 (i + v * 256)]
def boosted (t : Nat) : Device := let d := paced base (railAt 900) (allOn 7); { d with pace := { d.pace with boostStart := some t } }
def taken2 : Device := { base with parts := [(2, { Part.init with defined := true, bundles := 0x8000 })] }

theorem wit_PaceCommandResult : (Holding (paced base) (set7 35 3)).serves 0x61 (set7 35 3) ∧ (Holding (paced base) (set7 34 6)).serves 0x61 (set7 34 6)
    ∧ (Holding (paced base) (set7 34 3)).serves 0x61 (set7 34 3) ∧ (set7 34 6).words.length = 4
    ∧ (paced base).floorOf 34 ≤ 3 ∧ 6 ≤ (paced base).capOf 34 ∧ (paced base).therm.degrade = false ∧ (paced base).supplyAlarm = false
    ∧ ((paced base).dom 34).on = true ∧ (paced base).pace.waits = [] ∧ ((paced base).dom 34).pace = 3 ∧ (paced base).paceMoving 34 = false
    ∧ ((paced base).rail (railOf 34)).trans = none
    ∧ 0 < ({ tagged with parts := [(2, { bound2.part 2 with items := (tagged.part 2).items.map fun it => { it with pace := 6 } })] } : Device).floorOf 0
    ∧ base.pace.boostStart = none ∧ (boosted 8000000000).pace.boostStart = some 8000000000 ∧ 8000000000 + 2000000000 ≤ 10000000000
    ∧ 10000000000 < 8000000001 + 2000000000 ∧ (boosted 1).therm.device < 1600
    ∧ (1600 ≤ ({ base with therm := { base.therm with tj := [(2, 1600)] } } : Device).therm.device)
    ∧ (Holding taken2 (pkt 0x23 [BitVec.ofNat 64 (15 + 0x8001 * 256 + 6 * 2 ^ 24)])).serves 0x23 (pkt 0x23 [BitVec.ofNat 64 (15 + 0x8001 * 256 + 6 * 2 ^ 24)])
    ∧ taken2.bundlesTaken 15 0x8001 = true ∧ taken2.bundlesTaken 15 0x7FFF = false ∧ taken2.bundlesTaken 2 0xFFFF = false
    ∧ (taken2.part 15).weave = none ∧ taken2.pwr.handOver = false
    ∧ (∀ i < 35, 3 ≤ ((paced base).dom i).pace ∧ (paced base).paceMoving i = false) := by
  unfold State.serves State.holds; decide +kernel

theorem test_partition_set : after (exec .partitionSet (Holding taken2 (pkt 0x23 [BitVec.ofNat 64 (15 + 0x7FFF * 256)]))) (fun t =>
    (t.dev.part 15).defined && (t.dev.part 15).bundles == 0x7FFF && t.dev.port.replies.length == 1) = true := by decide +kernel

/-! ### Power states -/

def pwrS (f : PowerSt → PowerSt) (d : Device := base) : Device := { d with pwr := f d.pwr }
def going (st b : Power) (started : Option Nat) (d : Device := base) : Device :=
  pwrS (fun x => { x with state := st, trans := some ⟨b, some ⟨0x60, 0, 0, 0, 0, 0⟩, 1, started, false⟩ }) d
/-- The rails as HUSH and LISTEN have them with every domain off. -/
def lowRails : Device := { base with pace := { base.pace with rails := [(0, railAt 640), (1, railAt 640)] } }
def listenRails : Device := { base with pace := { base.pace with rails := [(0, (railAt 550)), (2, (railAt 550))] } }
def hushed : Device := pwrS (fun x => { x with state := .hush }) base

theorem wit_PowerStateResult : (Holding base (pkt 0x60 [5])).serves 0x60 (pkt 0x60 [5]) ∧ (Holding base (pkt 0x60 [4])).serves 0x60 (pkt 0x60 [4])
    ∧ (pkt 0x60 [4]).words.length = 4 ∧ ((pkt 0x60 [4]).w 2).toNat = Power.off.num ∧ ((pkt 0x60 [0]).w 2).toNat = base.pwr.state.num
    ∧ base.powerRefused 10000000000 .run = false ∧ base.powerRefused 10000000000 .off = false ∧ hushed.powerRefused 10000000000 .run = false
    ∧ (Holding hushed (pkt 0x60 [0])).serves 0x60 (pkt 0x60 [0]) ∧ (going .run .hush none).pwr.trans.isSome = true
    ∧ (Holding base (pkt 0x62 [0xFFFFFFFF])).serves 0x62 (pkt 0x62 [0xFFFFFFFF])
    ∧ (going .run .hush none).transFits 10000000000 .hush = true ∧ (going .run .hush none).railsIdle = true
    ∧ (going .run .hush none runningD).transFits 10000000000 .hush = false
    ∧ (going .hush .run (some 1) (paced base)).railsReady .run true = true
    ∧ (going .run .hush (some 1) lowRails).railsReady .hush false = true ∧ (going .hush .listen (some 1) listenRails).railsReady .listen false = true
    ∧ (going .listen .ember (some 1) base).railsReady .ember false = true ∧ (going .ember .off (some 1) base).railsReady .off false = true
    ∧ (going .run .hush (some 1)).dram.freq = none ∧ Power.run.hop .hush = Power.hush ∧ Power.listen.hop .ember = Power.ember
    ∧ Power.hush.hop .listen = Power.listen ∧ Power.hush.hop .run = Power.run ∧ Power.ember.hop .off = Power.off
    ∧ (at_ { going .hush .run (some 1) (paced base) with port := { base.port with order := [⟨⟨0x60, 0, 0, 0, 0, 0⟩, true, none⟩] } }).owes
        ⟨0x60, 0, 0, 0, 0, 0⟩ := by
  unfold State.serves State.holds State.owes; decide +kernel

def mainsD (level acc : Bool) (at0 : Nat) (f : PowerSt → PowerSt := id) : Device :=
  pwrS fun x => f { x with mains := level, mainsAcc := acc, mainsAt := at0 }

theorem wit_MainsResult : base.pwr.mains = true ∧ (mainsD false true 9950000000).aon.up = true ∧ 9950000000 + 50000000 ≤ 10000000000
    ∧ 10000000000 < 9950000001 + 50000000 ∧ (mainsD true false 0).pwr.mainsAcc = false ∧ (mainsD false true 0).pwr.battAcc = true
    ∧ (mainsD false true 0).ready = true ∧ (mainsD false true 0).pwr.handOver = false ∧ (mainsD false true 0).pwr.onBattery = false
    ∧ (mainsD false true 0).pwr.trans = none ∧ (mainsD false true 0 fun x => { x with state := .ember }).pwr.state = .ember
    ∧ (mainsD false true 0 fun x => { x with battAcc := false }).pwr.battAcc = false
    ∧ (mainsD true true 9950000000 fun x => { x with countStopped := true }).pwr.countStopped = true
    ∧ (mainsD true true 0 fun x => { x with count := some 8000000000, onBattery := true }).pwr.count = some 8000000000
    ∧ 8000000000 + 2000000000 ≤ 10000000000 ∧ 10000000000 < 8000000001 + 2000000000
    ∧ (mainsD true true 0 fun x => { x with enteredByLoss := true, state := .ember, mainsAccAt := 8000000000, since := 8000000000 }).wakes = true
    ∧ ({ pwrS (fun x => { x with state := .off }) with aon := { base.aon with boot := .down } } : Device).wakes = true
    ∧ ({ base with aon := { base.aon with perstLow := some 9999900000 } } : Device).aon.perstLow = some 9999900000
    ∧ 9999900000 + 100000 ≤ 10000000000 ∧ 10000000000 < 9999900001 + 100000 ∧ base.wakes = false ∧ base.aon.bootSel = false
    ∧ ({ base with aon := { base.aon with bootSel := true } } : Device).aon.bootSel = true := by decide +kernel

theorem test_hand_over : after (exec .pwrMainsAccept (at_ (mainsD false true 9950000000))) (fun t =>
    t.dev.pwr.handOver && t.dev.pwr.trans.map (·.to_) == some .listen) = true := by decide +kernel
theorem test_on_battery : after (exec .pwrMainsAccept (at_ (mainsD false true 9950000000 fun x => { x with state := .ember }))) (fun t =>
    t.dev.pwr.onBattery && !t.dev.pwr.handOver) = true := by decide +kernel

/-! ### Start, supply, temperature -/

def bootD (b : Boot) (f : Aon → Aon := id) (r : RailSt := RailSt.init) : Device :=
  { Device.init with aon := f { Device.init.aon with porstLow := false, boot := b }, pace := { Device.init.pace with rails := [(2, r)] } }
def hubRailAt (ph : RailPhase) (since : Nat) : RailSt := { railAt 800 with trans := some ⟨true, [], [], 800, ph, since⟩ }

/-- A board record of one target, 65,536 host pages, one written in production, and 131,072 allocation pages; its CRC is
3511759674. -/
def oneTarget : List Word := [0x000000016B0A7D21, 0x0000000000100024, 0, 2, 0x100010000, 0x20000, 0, 3511759674]
/-- Only the last boot copy is good, and bears that record; flash holds one committed journal page of two records. -/
def mountRecs : List JRec := [journalRec 5 1 0x02 700, journalRec 6 1 0x02 701]
def mountD : Device := { bootD .trained with
  ten := { Tenant.init with state := .open_ }
  peat := { (bootD .trained).peat with
    boots := [⟨false, oneTarget, true⟩, ⟨true, [], true⟩, ⟨true, oneTarget, false⟩, ⟨true, oneTarget, true⟩]
    rings := [(0, [⟨0, mountRecs⟩]), (2, [⟨0, mountRecs⟩])] } }
/-- A production device: no journal. -/
def newD : Device := { mountD with peat := { mountD.peat with rings := [] } }

theorem wit_BootResult : Device.init.aon.up = true ∧ ({ Device.init with aon := { Device.init.aon with up := false } } : Device).aon.up = false
    ∧ Device.init.aon.porstLow = true ∧ (bootD .released).aon.porstLow = false
    ∧ (bootD .released fun x => { x with bootAt := 9995000000 }).aon.bootAt + 5000000 ≤ 10000000000 ∧ 10000000000 < 9995000001 + 5000000
    ∧ ((bootD .released).rail 2).trans = none ∧ ((bootD .released).rail 2).mv < 800
    ∧ 800 ≤ ((bootD .hubRail id (hubRailAt .settled 9999980000)).rail 2).mv
    ∧ ((bootD .hubRail id (hubRailAt .settled 9999980000)).rail 2).trans = some ⟨true, [], [], 800, .settled, 9999980000⟩
    ∧ 9999980000 + 20000 ≤ 10000000000 ∧ 10000000000 < 9999980001 + 20000 ∧ (bootD .trained).aon.boot = .trained
    ∧ (∀ i < 35, (paced (bootD .trained)).dom i = dom3) := by decide +kernel

/-- The caps of the settings (the record's word 1) and the policies of a rank set. -/
theorem wit_BootResult_training : (bootD .hubUp).aon.boot = .hubUp ∧ (∀ h < 2, ((bootD .hubUp).halfDram h).retired.length < 1024)
    ∧ (bootD .hubUp).boardSettings.fld 1 0 = 0 ∧ (bootD .hubUp).boardSettings.fld 7 6 = 0
    ∧ (FullRate.r6400 ∈ (⟨false, 2, [.r6400, .r5600, .r4800]⟩ : RankResult).rates) ∧ FullRate.r4800 ∉ (⟨true, 1, []⟩ : RankResult).rates
    ∧ (2 : RankSet).val = 2 ∧ (1 : RankSet).val < 2 := by decide +kernel

theorem wit_BootResult_mount : mountD.peat.hasJournal = true ∧ newD.peat.hasJournal = false ∧ mountD.aon.boot = .trained
    ∧ (mountD.peat.bootCopy).map (·.board) = some oneTarget ∧ ({ mountD.peat with boots := [] } : Peat).bootCopy = none
    ∧ ({ mountD.peat with board := oneTarget, rejected := [] } : Peat).hostPages
        + ({ mountD.peat with board := oneTarget, rejected := [] } : Peat).boardAlloc ≤ ({ mountD.peat with board := oneTarget, rejected := [] } : Peat).areaPages
    ∧ mountD.ten.state ≠ .closed ∧ mountD.peat.journal [] = mountRecs
    ∧ (∀ r ∈ mountRecs, jKind r = 0x02 ∧ devLpn (jLpn r) = false)
    ∧ newD.peat.committed + newD.peat.tail.length ≤ newD.peat.appended ∧ 0 < (oneTarget.getD 4 0).fld 63 32 := by decide +kernel

/-- R307: the newer of two records of a page locates it. -/
theorem test_mount : (mountD.dom 0).on = false ∧ after (exec (.peatMount ⟨[], []⟩) (at_ { mountD with pace := (paced base).pace })) (fun t =>
    t.dev.pwr.state == .run && !t.dev.hub.oos && t.dev.peat.board == oneTarget && t.dev.peat.lookup 1 == some 701) = true := by
  decide +kernel

/-- R458: PORST_N rising latches BOOT_SEL and raises GPIO0; one bad bank is FUSE_BANK. -/
theorem test_porst : after (exec (.porstRelease true false true) State.reset) (fun t =>
    t.dev.aon.boot == .released && t.dev.aon.bootSel && t.dev.aon.gpio0 && t.dev.ev.waiting.length == 1) = true := by decide +kernel

def writing : Device := { open1 with
  mem := { open1.mem with dirty := [(7, true)] }, ten := { open1.ten with allocs := [(0, some allocA)] } }
def losing (st : Power) : Device := pwrS fun x => { x with state := st, pfail := some ⟨9999000000, false⟩ }

theorem wit_SupplyLossResult : Device.init.aon.porstLow = true ∧ writing.aon.up = true ∧ writing.aon.porstLow = false ∧ writing.therm.tripped = false
    ∧ writing.aon.boot = .done ∧ writing.pwr.pfail = none ∧ (bootD .hubUp).aon.boot ≠ .done ∧ (bootD .hubUp).aon.boot ≠ .down
    ∧ (losing .run).peat.appended = (losing .run).peat.committed + (losing .run).peat.tail.length
    ∧ (losing .run).peat.tail.length ≤ 512 ∧ (losing .run).peat.ringUpto.get 0 2 = (losing .run).peat.committed
    ∧ (losing .run).pwr.pfail = some ⟨9999000000, false⟩ ∧ (losing .run).flashBusy = false ∧ (losing .run).pwr.state ≠ .ember
    ∧ (winD .none 0 [] [opP .erase 0]).flashBusy = true ∧ base.aon.refclk = true
    ∧ ({ base with therm := { base.therm with tripped := true } } : Device).therm.tripped = true := by decide +kernel

theorem test_pfail_gate : after (exec .pfailGate (at_ (losing .run))) (fun t => t.dev.pwr.state == .ember && t.dev.pwr.enteredByLoss) = true := by
  decide +kernel
theorem test_trip : after (exec .hardTrip (at_ open1)) (fun t => t.dev.therm.tripped && t.dev.ten.key == open1.ten.key && t.dev.aon.thermAlert) = true := by
  decide +kernel

def hot (n : Nat) (x : Int) (cap since : Nat) : Device := { base with therm := { base.therm with
  tj := if x = 0 then [] else [(n, x)], cap := if cap = 7 then [] else [(n, cap)], capAt := [(n, since)] } }

theorem wit_ThermalResult : base.aon.up = true ∧ base.sensing = true ∧ highest [1759, 1760] = 1760 ∧ max (highest [1839]) (max (highest [0]) (highest [0])) < 1840
    ∧ base.therm.degrade = false ∧ base.pwr.pfail = none
    ∧ ({ base.therm with degrade := true, coolSince := some 9000000000 } : Thermal).coolSince = some 9000000000
    ∧ 9000000000 + 1000000000 ≤ 10000000000 ∧ 10000000000 < 9000000001 + 1000000000
    ∧ 1712 ≤ (hot 2 1712 7 9990000000).therm.tj.get 0 2 ∧ (hot 2 1712 7 9990000000).therm.capAt.get 0 2 + 10000000 ≤ 10000000000
    ∧ 10000000000 < 9990000001 + 10000000 ∧ (hot 1 1632 5 9900000000).therm.tj.get 0 1 ≤ 1632 ∧ (hot 1 1632 5 9900000000).therm.cap.get 7 1 ≠ 7
    ∧ 9900000000 + 100000000 ≤ 10000000000 ∧ 10000000000 < 9900000001 + 100000000 ∧ (base.aon.up = true → base.sensing = true)
    ∧ ({ base with aon := { base.aon with up := false } } : Device).sensing = false := by decide +kernel

/-- R381: 110 °C raises THERMAL_DEGRADE once, with Tj in degrees. -/
theorem test_degrade : after (exec (.thermalSample [1760] [0] [0]) (at_ base)) (fun t =>
    t.dev.therm.degrade && t.dev.ev.waiting.map (·.w2) == [110]) = true := by decide +kernel
theorem test_shutdown : after (exec (.thermalSample [0] [1840] [0]) (at_ base)) (fun t => t.dev.pwr.pfail == some ⟨10000000000, true⟩) = true := by
  decide +kernel

/-! ### DRAM -/

def spareHalf : HalfDram := { HalfDram.init with ranks := [(0, .service), (1, .spare)] }
def dramD (x : HalfDram) (f : Dram → Dram := id) : Device :=
  { base with dram := f { base.dram with trained := true, rankPages := 65536, halves := [(1, x)] } }
def subD (x : SubDram) : Device := dramD spareHalf fun m => { m with subs := [(11, x)] }

/-- One nibble in error in the last codeword; two there; a location that differs in two nibbles of the folded value. -/
def ecc1 : Ecc := ⟨[[], [], [], [], [], [], [], [19]], 0⟩
def ecc2 : Ecc := ⟨[[], [], [], [], [], [], [], [0, 19]], 0⟩
def eccFar : Ecc := ⟨[], 0x11⟩

theorem wit_DramResult : (dramD spareHalf).rankOfPage 1 65535 = some 0 ∧ (dramD spareHalf).rankOfPage 0 0 = none ∧ (dramD spareHalf).dram.serves = true
    ∧ base.dram.serves = false ∧ (dramD spareHalf).dram.settings.fld 23 8 ≠ 0
    ∧ (((dramD { spareHalf with ces := [(0, [1])] } fun m => { m with settings := 0x100 }).halfDram 1).ces.get [] 0).length
        = (dramD spareHalf fun m => { m with settings := 0x100 }).dram.settings.fld 23 8
    ∧ ((dramD spareHalf).halfDram 1).rank 0 = .service ∧ ((dramD spareHalf).halfDram 1).freeSpare = true
    ∧ ((dramD { spareHalf with ranks := [(0, .copying), (1, .spare)], copy := some (0, 65535), spareUsed := some 0 }).halfDram 1).copy = some (0, 65535)
    ∧ 65534 + 1 < (dramD spareHalf).dram.rankPages ∧ (dramD spareHalf).dram.rankPages ≤ 65535 + 1
    ∧ ((dramD { spareHalf with ranks := [(0, .copying), (1, .spare)], copy := some (0, 65535), spareUsed := some 0 }).halfDram 1).last ≠ 0
    ∧ ((subD SubDram.init).sub 11).mr4At.get 0 0 + 16000000 ≤ 10000000000 ∧ ((subD SubDram.init).sub 11).recovering 10000000000 = false
    ∧ ((subD { SubDram.init with alertAt := some 9999999000, replays := 2, replayEnd := 9999999600 }).sub 11).recovering 10000000000 = true
    ∧ 96000001 * 100 > 40 * [96000001, 144000000, 0, 0, 0, 0].sum ∧ [96000001, 144000000, 0, 0, 0, 0].sum * 64 > 15360000000
    ∧ ¬ (96000000 * 100 > 40 * [96000000, 144000001, 0, 0, 0, 0].sum) ∧ ((subD { SubDram.init with skewRuns := 9 }).sub 11).skewRuns = 9
    ∧ base.dram.freq = none ∧ (dramD spareHalf fun m => { m with freq := some (1, false) }).dram.freq = some (1, false)
    ∧ (dramD spareHalf fun m => { m with freq := some (1, true) }).dram.freq = some (1, true)
    ∧ (⟨true, 9, 1, 1, []⟩ : Fill) ∈ ({ base with mem := { base.mem with fills := [⟨true, 9, 1, 1, []⟩] } } : Device).mem.fills := by decide +kernel

def asked (site : Site) (inst : Nat) (w : Xfer) (d : Device) : Device :=
  { d with arb := ⟨[⟨site, inst, 0, 1, 0, none, ⟨none, none, w⟩, [], none⟩], [], 1⟩ }
/-- A subchannel whose bank index 2 owes one interval of refresh. -/
def owing : Device := dramD spareHalf fun m => { m with refreshFrom := 9999998050, kit := { m.kit with interval := 1950, parity := true } }

/-- Bursts: no error; one nibble; two; another location. -/
theorem wit_DramResult_ecc : (∀ i < 8, ((ecc1.flips.getD i []).eraseDups).length ≤ 1) ∧ ((ecc1.flips.getD 7 []).eraseDups).length = 1
    ∧ ((ecc2.flips.getD 7 []).eraseDups).length = 2 ∧ ecc1.moved = 0 ∧ eccMoved eccFar = 2 ∧ eccMoved ⟨[], 1⟩ = 1
    ∧ ([1, 2].filter fun t => decide (2 + dayAgo ≤ t + dayAgo)) = [2]
    ∧ ((dramD spareHalf).halfDram 1).ranges.length < 2 ∧ ((dramD spareHalf).halfDram 1).rank 0 ≠ .spare
    ∧ ((dramD spareHalf).halfDram 1).retired.length < 1024 := by decide +kernel

/-- Engines whose transfer is asked and is not; a bank index that owes, on an idle port and on one that is not. -/
theorem wit_DramResult_ports : (dramD spareHalf).asking (.copy 1) = false ∧ (asked .memPort 6 (.copy 1) (dramD spareHalf)).asking (.copy 1) = true
    ∧ (asked .memPort 6 (.patrol 3) (dramD spareHalf)).asking (.patrol 3) = true ∧ (dramD spareHalf).asking (.patrol 3) = false
    ∧ (∀ i < 6, (dramD spareHalf).portIdle (6 + i) = true) ∧ (asked .memPort 6 (.patrol 3) (dramD spareHalf)).portIdle 6 = false
    ∧ 10000000000 < 9872000201 + 128000000 - 200 + 1 ∧ 9872000200 + 128000000 - 200 ≤ 10000000000
    ∧ owing.owes 10000000000 11 2 = true ∧ owing.owes 9999999999 11 2 = false ∧ owing.portIdle 11 = true ∧ owing.dram.kit.parity = true
    ∧ (owing.sub 11).stopped 10000000000 = false ∧ (dramD spareHalf).dram.kit.parity = false
    ∧ ((subD { SubDram.init with alertAt := some 9999999000, replays := 2, replayEnd := 10000000001 }).sub 11).stopped 10000000000 = true
    ∧ (⟨.memPort, 0, 2, 0, 0, ⟨none, none, .landing⟩, []⟩ : Holder).site = .memPort ∧ [(0, 1), ((1 : Subch), (0 : RankSet))].length = 2
    ∧ (asked .memPort 6 (.fill true 9) base).asking (.fill true 9) = true ∧ base.asking (.fill true 9) = false ∧ 0 < base.cacheSets 1
    ∧ (match (asked .memPort 11 (.neighbour) owing).nextReq 10000000000 .memPort 11 with
        | some r => r.job.what != .refresh 2 | none => false) = true := by decide +kernel

/-- R281: an idle port pays the interval owed. -/
theorem test_refresh : after (exec (.sameBankRefresh 11 2) (at_ owing)) (fun t => t.dev.paidTo 11 2 == 10000000000 && t.dev.paidTo 11 1 == 9999998050)
    = true := by decide +kernel
/-- R286: an error of one nibble is corrected and counted; a location two nibbles off is seen. -/
theorem test_ecc : after (exec (.dramBurstRead true 65535 0 ecc1 (.alloc 3)) (at_ (dramD spareHalf))) (fun t =>
      (t.dev.halfDram 1).ces == [(0, [10000000000])] && t.dev.mem.poison == [])
    && after (exec (.dramBurstRead true 65535 0 eccFar (.alloc 3)) (at_ (dramD spareHalf))) (fun t => t.dev.mem.poison == [(3, true)]) = true := by
  decide +kernel

theorem test_uncorrectable : after (exec (.dramBurstRead true 65535 0 ecc2 (.alloc 3)) (at_ (dramD spareHalf))) (fun t =>
    (t.dev.halfDram 1).copy == some (0, 0) && t.dev.mem.poison == [(3, true)]) = true := by decide +kernel
theorem test_skew : after (exec (.skewWindow true [0, 0, 0, 0, 144000000, 96000001]) (at_ (subD { SubDram.init with skewRuns := 9 }))) (fun t =>
    t.dev.ev.waiting.map (·.code) == [0x0070] && (t.dev.sub 11).skewRuns == 10) = true := by decide +kernel

/-! ### Peat -/

/-- Two targets are populated: targets 1 and 2 of channel 0. -/
def peatD (f : Peat → Peat) : Device := { open1 with
  peat := f { open1.peat with mounted := true, board := oneTarget.set 3 6, allocPages := 131072 } }
def prog5 (dead : Bool) : FlashOp := ⟨.program, 5, physPage 0 1 3 0, 2, [7], 0, 0, dead, 4⟩
def commit9 : FlashOp := ⟨.commit, 0, 0, 1, [], 0, 0, false, 0⟩
def waitKs : PeatWait := ⟨⟨0x04, 0, 0, 0, 0, 0⟩, [], 0, 1, [1], some ⟨some p384G, [], 3, some (7, [1, 2, 3, 4])⟩, false⟩
def commitD : Device := peatD fun x => { x with
  busy := [(0, some commit9)], appended := 1, committed := 0, tail := [(9900000000, [0, 0, 0, 0])], ringUpto := [(2, 1)], waits := [waitKs] }
def eraseFirst : BitVec 32 := BitVec.ofNat 32 (physPage 0 1 3 0)

theorem wit_PeatResult : (peatD fun x => { x with queue := [(0, [prog5 false])] }).flashOn = true ∧ (peatD id).mayIssue 10000000000 0 .program = true
    ∧ (peatD id).peat.place 0 = some (1, 0) ∧ (peatD id).peat.tail.length + 1 < 512 ∧ (peatD id).peat.mayRetire = true
    ∧ (peatD fun x => { x with board := oneTarget }).peat.mayRetire = false
    ∧ ({ peatD id with parts := [(2, { runningD.part 2 with
        running := (runningD.part 2).running.map fun r => { r with item := { r.item with peat := true } } })] } : Device).mayIssue 10000000000 0 .erase = false
    ∧ (peatD fun x => { x with busy := [(0, some (prog5 true))] }).peat.busy.get none 0 = some (prog5 true)
    ∧ commitD.peat.committed + commitD.peat.tail.length = commit9.seq ∧ commit9.seq ≤ commitD.peat.ringUpto.get 0 (2 - 0)
    ∧ waitKs.need ≤ commit9.seq ∧ (at_ { commitD with port := { base.port with order := [⟨waitKs.id, true, none⟩] } }).owes waitKs.id
    ∧ (peatD fun x => { x with blocks := [(blockKey 0 1 3, { next := 1 })] }).peat.spent eraseFirst.toNat = true
    ∧ (peatD id).peat.spent eraseFirst.toNat = false ∧ (peatD id).peat.erasing eraseFirst.toNat = false
    ∧ 9900000000 + 100000000 ≤ 10000000000 ∧ 10000000000 < 9900000001 + 100000000 ∧ commitD.peat.appended ≠ commitD.peat.committed
    ∧ (peatD fun x => { x with map := [(5, some 77)] }).peat.lookup 5 = some 77 ∧ (peatD id).aon.gpio1 = true
    ∧ (peatD fun x => { x with rereads := [(5, 1)] }).peat.rereads.get 0 5 = 1
    ∧ [(5, some 77), (9, some 78)].find? (fun (e : Nat × Option Nat) => decide (8 < e.1)) = some (9, some 78)
    ∧ (peatD id).imageHolds 65535 1 = false ∧ 65535 + 1 ≤ (peatD id).peat.hostPages
    ∧ (Holding (peatD id) (pkt 0x71 [BitVec.ofNat 64 (65535 + 2 ^ 32)])).holds 0x71 (pkt 0x71 [BitVec.ofNat 64 (65535 + 2 ^ 32)])
    ∧ (peatD id).peat.lookup 65535 = none ∧ (pkt 0x71 [BitVec.ofNat 64 (65535 + 2 ^ 32)]).words.length = 4 := by
  unfold State.owes State.holds; decide +kernel

/-- Logical page 5 on a physical page that another logical page was written to. -/
def misreadD : Device := peatD fun x => { x with map := [(5, some 77)], pages := [(77, some ⟨[[0, 0, 0, 0]]⟩)], expect := [(5, 3)] }
def failW : PeatWait := ⟨⟨0x70, 0, 0, 0, 0, 0⟩, [4], 1, 0, [], none, false⟩

theorem wit_PeatResult_more : misreadD.peat.misread 5 = true ∧ (peatD fun x => { x with map := [(5, some 77)] }).peat.misread 5 = false
    ∧ misreadD.asking (.peatRead 5) = false ∧ (asked .flashChannel 0 (.peatRead 5) misreadD).asking (.peatRead 5) = true
    ∧ 24 < 25 ∧ (∀ e ∈ [24, 0], e ≤ 24) ∧ (∃ e ∈ [0, 41], 40 < e)
    ∧ (prog5 false).id ∈ failW.left ∧ (peatD id).peat.appended ≤ (peatD id).peat.committed ∧ commitD.peat.committed < commitD.peat.appended
    ∧ (peatD fun x => { x with board := oneTarget, busy := [(0, some (prog5 false))], waits := [failW] }).peat.mayRetire = false
    ∧ isMapPage 5 = false ∧ isMapPage 0xF8000000 = true ∧ (∀ e ∈ (peatD id).peat.busy, e.2 = none)
    ∧ waitKs.left = [] ∧ waitKs.failed = false ∧ commitD.peat.ringUpto.get 0 0 = commitD.peat.committed
    ∧ ((peatD fun x => { x with map := [(5, some 77)] }).peat.lookup 5).isSome = true
    ∧ (∀ f ∈ [(5, some 77)], f.1 ≤ 5) ∧ [(5, some 77)].head? = some ((5, some 77) : Nat × Option Nat) := by decide +kernel

/-- R298: the minimal polynomial of α is the field polynomial. -/
theorem test_bch : minPoly 1 = 0x4443 := by decide +kernel

/-- R299: metadata of another page make a read uncorrectable. -/
theorem test_misread : after (exec (.peatReadDone 5 []) (at_ misreadD)) (fun t => t.dev.peat.poison.get false 5 && t.dev.peat.rereads.get 0 5 == 3)
    = true := by decide +kernel

def programP : Packet := pkt 0x70 (BitVec.ofNat 64 (65535 + 2 ^ 32) :: List.replicate 2048 0)

theorem wit_PeatProgram : (Holding (peatD id) programP).holds 0x70 programP ∧ programP.words.length = 4 + 2048 * 1 ∧ (peatD id).peat.waits = [] := by
  refine ⟨⟨rfl, by decide +kernel, by decide +kernel, rfl⟩, by decide +kernel, rfl⟩

theorem test_program_done : after (exec (.peatProgramDone 0 true) (at_ (peatD fun x => { x with busy := [(0, some (prog5 false))] }))) (fun t =>
    t.dev.peat.lookup 5 == some (physPage 0 1 3 0) && t.dev.peat.tail.length == 1) = true := by decide +kernel
/-- R432: the key store's write opens the tenant once its journal commit stands in both rings. -/
theorem test_keystore_commit : after (exec (.peatProgramDone 0 true) (at_ commitD)) (fun t =>
    t.dev.ten.state == .open_ && t.dev.ten.id == 7 && t.dev.sec.lastCounter == 3) = true := by decide +kernel

/-! ### Cameras -/

/-- A port block: enabled, 80 Mb/s a lane, channel 15; LINK_TIMEOUT 10 ms. -/
def port15 : PortSlot := ⟨0, 0, BitVec.ofNat 64 (1 + 80 * 16 + 0x8000 * 2 ^ 32), 10⟩
/-- A pipe block: port 7, channel 15, RAW8, mono, 64 × 64, 1 fps, nothing written. -/
def mono64 : PipeBlock := [BitVec.ofNat 64 (1 + 7 * 2 + 15 * 16 + 0x2A * 2 ^ 8 + 5 * 2 ^ 14 + 64 * 2 ^ 32 + 64 * 2 ^ 46), BitVec.ofNat 64 (2 ^ 32), 0, 0, 0, 0, 0,
  BitVec.ofNat 64 (2 ^ 32)] ++ List.replicate 84 0
def camD (link : Bool) (cur : Option PipeFrame) (at0 : Nat := 0) : Device := { base with cam := { base.cam with
  csi := [(7, { CsiSt.init with slots := [port15], link := link, lastPacket := at0, lastAny := at0 })]
  pipes := [(3, ⟨[⟨0, 0, mono64, 0, 0, 0⟩], cur⟩)] } }
def frame63 (trunc : Bool) (lines : List (List Nat)) : PipeFrame := ⟨⟨0, 0, mono64, 0, 0, 0⟩, 7, 15, ⟨1, 0, 0⟩, lines, trunc, false, 0, 0⟩
def mono64P : Packet := pkt 0x50 (11 :: mono64)

theorem wit_CameraResult : (camD false none).csiPowered 7 = true ∧ (camD false none).hubServes = true ∧ ((camD false none).csi 7).takes 15 = true
    ∧ ((camD false none).pipe 3).slots.length = 1 ∧ PipeSlot.from_ ⟨0, 0, mono64, 0, 0, 0⟩ 7 15 = true
    ∧ ((camD true (some (frame63 false []))).pipe 3).cur = some (frame63 false []) ∧ (frame63 false []).lines.length < PipeBlock.height mono64
    ∧ PipeBlock.dataType mono64 = 0x2A ∧ ((camD true none 9998000000).csi 7).lastAny + 2000000 ≤ 10000000000
    ∧ 10000000000 < ((camD true none 9998000001).csi 7).lastAny + 2000000 ∧ (frame63 false []).ended = false
    ∧ ((camD true none 9990000000).csi 7).lastPacket + port15.w4.fld 13 0 * 1000000 ≤ 10000000000
    ∧ 10000000000 < ((camD true none 9990000001).csi 7).lastPacket + port15.w4.fld 13 0 * 1000000
    ∧ PipeBlock.height mono64 ≤ (frame63 false (List.replicate 64 (List.replicate 64 9))).lines.length
    ∧ PipeBlock.outputs mono64 = [] ∧ PipeBlock.statsHandle mono64 = 0
    ∧ (Holding base (pkt 0x50 [7, port15.w3, 10])).serves 0x50 (pkt 0x50 [7, port15.w3, 10]) ∧ portBlockOk port15.w3 10 = true
    ∧ portBlockOk port15.w3 9 = false ∧ portConflict [port15] 0 port15.w3 10 = false ∧ portConflict [port15] 1 port15.w3 10 = true
    ∧ (Holding base mono64P).serves 0x50 mono64P ∧ mono64P.words.length = 96 ∧ PipeBlock.ok mono64 = true ∧ PipeBlock.enable mono64 = true
    ∧ PipeBlock.ok (List.replicate 92 0) = false ∧ (base.csi (PipeBlock.port mono64)).link = false ∧ (base.pipe 3).slots = []
    ∧ PipeBlock.width mono64 * PipeBlock.height mono64 * PipeBlock.fpsMax mono64 ≤ 1200000000 := by
  unfold State.serves State.holds; decide +kernel

theorem wit_CameraResult_more : (camD false none).asking (.pipe 3) = false ∧ (asked .halfSpine 0 (.pipe 3) (camD false none)).asking (.pipe 3) = true
    ∧ (blockHandleWords mono64).any handleBad = false ∧ (blockHandleWords (mono64.set 76 0x10000)).any handleBad = true
    ∧ LineCheck.badCrc ≠ .good ∧ (Overflow.staging 2 = .staging 2 ∧ (2 : BitVec 2).toNat ≠ 3)
    ∧ (List.replicate 64 (0 : Byte)).length * 8 = PipeBlock.width mono64 * ((rawBits 0x2A).getD 8)
    ∧ (List.replicate 63 (0 : Byte)).length * 8 ≠ PipeBlock.width mono64 * ((rawBits 0x2A).getD 8)
    ∧ port15.w3.getLsbD 0 = true ∧ port15.ctx ≠ 1 ∧ (portMask port15.w3 &&& portMask port15.w3) ≠ 0 := by decide +kernel

/-- R328: an overflow of the pipe's own output staging truncates its frame, one of another pipe's does not. -/
theorem test_staging : after (exec (.csiLine 7 15 0x2A (List.replicate 64 9) .good (.staging 3)) (at_ (camD true (some (frame63 false [])))))
      (fun t => (t.dev.pipe 3).cur.map (fun f => (f.truncated, f.overrun)) == some (true, true))
    && after (exec (.csiLine 7 15 0x2A (List.replicate 64 9) .good (.staging 2)) (at_ (camD true (some (frame63 false [])))))
      (fun t => (t.dev.pipe 3).cur.map (fun f => (f.truncated, f.lines.length)) == some (false, 1)) = true := by decide +kernel

theorem test_frame_start : after (exec (.csiFrameStart 7 15 9) (at_ (camD false none))) (fun t =>
    ((t.dev.pipe 3).cur.map fun f => (f.frame.number, f.frame.sensor)) == some (1, 9) && (t.dev.csi 7).link) = true := by decide +kernel
theorem test_camera_set : after (exec .cameraSet (Holding base mono64P)) (fun t => (t.dev.pipe 3).slots.length == 1) = true := by decide +kernel

/-! ### Listening -/

/-- Pin 0 present, channels 0 and 1, nothing written. -/
def aud01 : AudBlock := [BitVec.ofNat 64 (1 + 256 + 3 * 2 ^ 32), 4, 0, 0]
def audD (slot : Option AudBlock) (link : Bool) (next : Nat) : Device := { base with aud := { base.aud with
  slots := slot.toList.map fun b => ⟨0, 0, b⟩, link := link, pins := if link then [(0, true)] else [], nextBlock := next } }
/-- A table without an image: watch 0 on port 7, watch 1 off, one rule of the tier, on score 0 at or above 0. -/
def table1 (tier : Nat) (weave : Nat) : WakeTable := ⟨0, [BitVec.ofNat 64 (weave * 2 ^ 32), BitVec.ofNat 64 (2 ^ 16 + 2 ^ 32 + 2 ^ 56),
  BitVec.ofNat 64 (7 + 15 * 2 ^ 8 + 2 ^ 16 + 2 ^ 24), BitVec.ofNat 64 (tier * 64 + 5 * 256 + 7 * 2 ^ 38)], [], []⟩
def casD (t : WakeTable) (f : Cascade → Cascade := id) (d : Device := base) : Device := { d with cas := f { d.cas with table := some t } }
def rule1 (tier : Nat) : Word := BitVec.ofNat 64 (tier * 64 + 5 * 256 + 7 * 2 ^ 38)
/-- In LISTEN, a weave of generation 1 named for Tier 1. -/
def listenD : Device := { pwrS (fun x => { x with state := .listen }) open1 with ten := { open1.ten with weaves := [(0, some { looseW with gen := 1 })] } }
def scoutD (run : CoreRun) (block : List Word) : Device := ({ casD (table1 1 0x01000000) (fun x => { x with
  tier1 := some ⟨9999000000, 0, 1⟩, raised := true }) listenD with pwr := { base.pwr with state := .hush } } : Device).setCore 0
    { Core.init with part := true, run := run, pool := cells 0x300 (wordsBytes block), result := (0x300, block.length) }
def wakeP : Packet := pkt 0x52 [0, 0, BitVec.ofNat 64 (2 ^ 16 + 2 ^ 56), BitVec.ofNat 64 (7 + 15 * 2 ^ 8 + 2 ^ 16 + 2 ^ 24), rule1 2]

theorem wit_AudioAndTable : (Holding base (pkt 0x51 (0 :: aud01))).serves 0x51 (pkt 0x51 (0 :: aud01)) ∧ (pkt 0x51 (0 :: aud01)).words.length = 8
    ∧ AudBlock.ok aud01 = true ∧ AudBlock.writes aud01 = false ∧ AudBlock.ok [0, 0, 0, 0] = false ∧ base.aud.link = false
    ∧ (Holding (audD (some aud01) true 3) (pkt 0x53 [BitVec.ofNat 64 (3 + 10 * 65536), 0])).serves 0x53 (pkt 0x53 [BitVec.ofNat 64 (3 + 10 * 65536), 0])
    ∧ ((audD (some aud01) true 3).aud.slotOf 0).isSome = true ∧ (3 &&& AudBlock.mask aud01) = 3 ∧ 10 * 1000000 ≤ 10000000 * (audD (some aud01) true 3).aud.nextBlock
    ∧ (Holding base wakeP).serves 0x52 wakeP ∧ wakeP.words.length = 7 + (wakeP.w 4).toNat / 2 ^ 56 % 32 ∧ (wakeP.w 4).toNat / 2 ^ 56 % 32 = 1
    ∧ (⟨0, (wakeP.words.drop 3).take (3 + 1), [], []⟩ : WakeTable).ok = true
    ∧ base.earsOn = true ∧ bitOf (audD (some aud01) false 0).aud.present 0 = true ∧ bitOf (audD (some aud01) false 0).aud.present 1 = false
    ∧ 10000000000 / 10000000 - 1 = (audD (some aud01) true 999).aud.nextBlock ∧ 10000000000 / 10000000 - 1 < (audD (some aud01) true 1000).aud.nextBlock
    ∧ (audD (some aud01) false 999).aud.pins.get false 0 = false := by
  unfold State.serves State.holds; decide +kernel

theorem wit_AudioBlock_handles : handleBad (AudBlock.handle aud01) = false ∧ handleBad (AudBlock.knotWeave aud01) = false
    ∧ handleBad (AudBlock.handle (aud01.set 1 0x1000000000000)) = true ∧ handleBad (AudBlock.knotWeave (aud01.set 2 0x10000)) = true := by decide +kernel

theorem wit_ListeningResult : (casD (table1 2 0)).cas.table = some (table1 2 0) ∧ (table1 2 0).watchPort 0 = 7 ∧ 8 ≤ (table1 2 0).watchPort 1
    ∧ (camD true none).csiPowered 7 = true ∧ ((camD true none).csi 7).link = true ∧ (base.watch 0).height = 0
    ∧ ((casD (table1 2 0) fun x => { x with frameBlock := some 4 }).cas.frameBlock) = some 4 ∧ (table1 2 0).rules = [rule1 2] ∧ ruleHold (rule1 2) = 0
    ∧ ruleMet (rule1 2) ((casD (table1 2 0)).score (table1 2 0) (ruleScore (rule1 2))) = true ∧ ruleTier (rule1 2) = 2 ∧ ruleTier (rule1 1) = 1
    ∧ ruleMet (rule1 2 + 0x10000) 0 = false ∧ (table1 2 0).autoRun = false ∧ base.pwr.onBattery = false
    ∧ listenD.pwr.state = .listen ∧ listenD.mayRaise = true ∧ listenD.wakeBusy = false ∧ listenD.tier1Able (table1 1 0x01000000) = true
    ∧ (scoutD .halted [2]).cas.tier1 = some ⟨9999000000, 0, 1⟩ ∧ 9999000000 + 1000000 * 1 ≤ 10000000000 ∧ 10000000000 < 9999000001 + 1000000 * 1
    ∧ ((scoutD .running []).core 0).run = .running ∧ (scoutD .halted [2]).weave? 0 = some { looseW with gen := 1 }
    ∧ ((scoutD .halted [2]).core 0).resultBlock = [2] ∧ ((scoutD .halted [1]).core 0).resultBlock = [1]
    ∧ (∀ c < 4, ((scoutD .halted [2]).core c).part = false ∨ ((scoutD .halted [2]).core c).run = .halted)
    ∧ (scoutD .halted []).mayRaise = true ∧ (table1 1 0).linger = 1 ∧ 9999000000 + 1000000 * (table1 1 0).linger ≤ 10000000000 := by
  decide +kernel

/-- R364: the rule raises WAKE with its cause, of tier 2. -/
theorem test_wake : after (exec .tier0FrameDone (at_ (casD (table1 2 0) fun x => { x with frameBlock := some 4 }))) (fun t =>
    t.dev.ev.waiting.map (·.w2) == [BitVec.ofNat 64 (2 + 5 * 256)] && t.dev.cas.refractory == [(0, 7)]) = true := by decide +kernel
theorem test_scout : after (exec .tier0FrameDone (at_ { casD (table1 1 0x01000000) (fun x => { x with frameBlock := some 4 }) listenD with aon := base.aon })) (fun t =>
    t.dev.cas.waiting == some (0, 5, 4) && t.dev.pwr.trans.map (·.to_) == some .hush) = true := by decide +kernel
theorem test_tier1_halt : after (exec .tier1Halt (at_ (scoutD .halted [2 + 9 * 256]))) (fun t =>
    t.dev.ev.waiting.map (·.w2) == [BitVec.ofNat 64 (2 + 9 * 256)] && t.dev.cas.tier1.isNone) = true := by decide +kernel

/-! ### Buses -/

def busD (x : I3c) : Device := { base with i3c := [(1, x)] }
def bus0 : I3c := { I3c.init with started := true }

theorem wit_BusResult : (busD bus0).busOn = true ∧ ((busD bus0).bus 1).started = true ∧ (base.bus 1).started = false
    ∧ ((busD { bus0 with scheduled := some 3 }).bus 1).scheduled.isSome = true ∧ ((busD bus0).bus 1).scheduled = none
    ∧ ((busD { bus0 with nextTry := some 10000000000 }).bus 1).nextTry = some 10000000000 ∧ ((busD bus0).bus 1).nextTry = none
    ∧ (0x08 ∈ busPool ∧ 0x3D ∈ busPool ∧ 0x3E ∉ busPool) ∧ bus0.table.get none 0x08 = none
    ∧ (∀ k ∈ busPool, bus0.table.get none k ≠ some 9 ∧ 0x08 ≤ k)
    ∧ (∀ k ∈ busPool, ({ bus0 with table := [(0x09, some 9)] } : I3c).table.get none k = some 9 → 0x09 ≤ k)
    ∧ bus0.alone = false ∧ ({ bus0 with alone := true, lastAlone := some 1 } : I3c).lastAlone = some 1
    ∧ ({ base with aon := { base.aon with boot := .trained }, therm := { base.therm with tripped := true } } : Device).busOn = false := by decide +kernel

theorem test_hot_join : after (exec (.entdaa true [77]) (at_ (busD { bus0 with scheduled := some 3 }))) (fun t =>
    (t.dev.bus 1).table == [(0x08, some 77)] && t.dev.ev.waiting.map (·.code) == [0x0050]) = true := by decide +kernel
theorem test_alone : after (exec (.i3cRetry true []) (at_ (busD { bus0 with nextTry := some 10000000000, backoff := 1024 }))) (fun t =>
    (t.dev.bus 1).backoff == 1024 && (t.dev.bus 1).nextTry == some 11024000000 && t.dev.ev.waiting.map (·.code) == [0x0051]) = true := by decide +kernel

end Sys2Proof.Tests
end

/-! PROOFS. Scope: device time and the queue under a step (R9), the idle step (R371, R420), the state after reset, and what
PORST_RELEASE does to the address tables of the I3C buses (R445). -/

namespace Sys2Proof.Machine

variable {s t : State} {i : Instr}

/-! ### What runs in a step -/

theorem step_of_queue_empty (h : s.pending = []) : step s = idle s := by
  simp only [step, h]

theorem step_of_queue_cons {rest : List Instr} (h : s.pending = i :: rest) :
    step s = exec i { s with pending := rest } := by
  simp only [step, h]

/-- Every command but POWER_ON_TIMER changes the device alone: each row of the dispatch is `State.act` of some change. -/
theorem exec_next_dev (hi : i ≠ .powerOnTimer) : ∃ d, exec i s = .next { s with dev := d } := by
  cases i
  case powerOnTimer => exact absurd rfl hi
  case illegalInstr c w =>
    simp only [exec, execIllegalInstr]
    split
    · exact ⟨_, rfl⟩
    · exact ⟨_, rfl⟩
  all_goals exact ⟨_, rfl⟩

/-! ### Device time (R9) -/

/-- A command leaves device time as it is, but for POWER_ON_TIMER, which may start it again from 0; no command touches the
queue. -/
theorem exec_clock (h : exec i s = .next t) :
    t.pending = s.pending ∧ (t.now = s.now ∨ i = .powerOnTimer ∧ t.now = 0) := by
  by_cases hi : i = .powerOnTimer
  · subst hi
    simp only [exec, execPowerOnTimer] at h
    split at h
    · cases h; exact ⟨rfl, .inl rfl⟩
    · cases h; exact ⟨rfl, .inr ⟨rfl, rfl⟩⟩
  · obtain ⟨d, hd⟩ := exec_next_dev (s := s) hi
    rw [hd] at h
    cases h; exact ⟨rfl, .inl rfl⟩

/-- An idle step: one period of the time base, within 64 bits, while the clock runs; else nothing. -/
theorem idle_cases (h : idle s = .next t) :
    (s.dev.clockRuns = true ∧ s.now + tickNs < 2 ^ 64 ∧
      t = { s with now := s.now + tickNs, dev := s.dev.pass s.now (s.now + tickNs) })
    ∨ (s.dev.clockRuns = false ∧ t = s) := by
  unfold idle at h
  split at h
  · next hr =>
    split at h
    · next hlt => cases h; exact .inl ⟨hr, hlt, rfl⟩
    · cases h
  · next hr => cases h; exact .inr ⟨by simpa using hr, rfl⟩

/-- What a step can do to device time and the queue. -/
theorem step_clock (h : step s = .next t) : t.pending = s.pending.tail ∧
    (t.now = s.now ∨ (s.pending.head? = some .powerOnTimer ∧ t.now = 0)
      ∨ (t.now = s.now + tickNs ∧ t.now < 2 ^ 64)) := by
  cases hq : s.pending with
  | nil =>
    rw [step_of_queue_empty hq] at h
    obtain ⟨-, hlt, rfl⟩ | ⟨-, rfl⟩ := idle_cases h
    · exact ⟨hq, .inr (.inr ⟨rfl, hlt⟩)⟩
    · exact ⟨hq, .inl rfl⟩
  | cons c rest =>
    rw [step_of_queue_cons hq] at h
    obtain ⟨hp, hn | ⟨rfl, hn⟩⟩ := exec_clock h
    · exact ⟨hp, .inl hn⟩
    · exact ⟨hp, .inr (.inl ⟨rfl, hn⟩)⟩

/-- Settles O3, by what a step can do to device time and the queue. -/
theorem timeIsMonotonic : Obligations.TimeIsMonotonic := by
  intro s t h
  obtain ⟨hp, hn⟩ := step_clock h
  refine ⟨fun hne => ?_, hp⟩
  obtain hn | ⟨hq, -⟩ | ⟨hn, -⟩ := hn
  · exact Nat.le_of_eq hn.symm
  · exact absurd hq hne
  · omega

/-- Settles O4: only an idle step moves device time forward, and it stays below 2^64. -/
theorem timeStaysIn64Bits : Obligations.TimeStaysIn64Bits := by
  intro s t hs h
  obtain ⟨-, hn | ⟨-, hn⟩ | ⟨-, hlt⟩⟩ := step_clock h
  · omega
  · omega
  · exact hlt

/-! ### The idle step (R9, R371, R420) -/

theorem idle_running (hr : s.dev.clockRuns = true) (hlt : s.now + tickNs < 2 ^ 64) :
    idle s = .next { s with now := s.now + tickNs, dev := s.dev.pass s.now (s.now + tickNs) } := by
  simp only [idle, hr, hlt, if_true]

theorem idle_stopped (hr : s.dev.clockRuns = false) : idle s = .next s := by
  simp [idle, hr]

theorem Device.clockRuns_iff {d : Device} : d.clockRuns = true ↔ d.aon.up = true ∧ d.aon.refclk = true := by
  simp [Device.clockRuns]

/-- The residency counter of the power state in force takes the time that passes, and no other does (R371). -/
theorem Device.elapse_residency (d : Device) (n k : Nat) :
    (d.elapse n).aon.residency.get 0 k = d.aon.residency.get 0 k + if k = d.pwr.state.num then n else 0 := by
  by_cases hk : k = d.pwr.state.num
  · subst hk; simp [Device.elapse]
  · simp [Device.elapse, SMap.get_modify_other hk, hk]

/-- Within an epoch of the configuration digest only the residency counters move. -/
theorem Device.pass_within_epoch (d : Device) {a b : Nat} (h : a / epochNs = b / epochNs) :
    d.pass a b = d.elapse (b - a) := by
  simp [Device.pass, h]

/-- Where an epoch starts, the hub takes the digest that it expects of it (R420). -/
theorem Device.pass_into_epoch (d : Device) {a b : Nat} (h : a / epochNs ≠ b / epochNs) :
    d.pass a b = (d.elapse (b - a)).openEpoch := by
  simp [Device.pass, h]

/-- Settles O2: by whether an epoch of the configuration digest starts within the 40 ns. -/
theorem idleStepCountsTime : Obligations.IdleStepCountsTime := by
  intro s hq
  rw [step_of_queue_empty hq]
  refine ⟨fun hup hclk hlt => ?_, fun hstop => idle_stopped ?_⟩
  · have hrun := idle_running (s := s) (Device.clockRuns_iff.2 ⟨hup, hclk⟩) hlt
    have hres := s.dev.elapse_residency 40
    have h40 : s.now + tickNs - s.now = 40 := by simp [tickNs]
    by_cases he : s.now / epochNs = (s.now + tickNs) / epochNs
    · rw [Device.pass_within_epoch _ he, h40] at hrun
      exact ⟨_, s.dev.hub.digWant, hrun, fun _ => rfl, fun hl => absurd he (Nat.ne_of_lt hl), hres⟩
    · rw [Device.pass_into_epoch _ he, h40] at hrun
      exact ⟨_, _, hrun, fun h => absurd h he, fun _ => rfl, hres⟩
  · rw [Bool.eq_false_iff, Ne, Device.clockRuns_iff]
    rintro ⟨hup, hclk⟩
    obtain h | h := hstop <;> simp [h] at hup hclk

/-! ### The state after reset (R458) -/

/-- After reset p0 alone reads true (R48). -/
theorem init_guardOk (n : BitVec 3) : Core.init.guardOk ⟨n, false⟩ = decide (n = 0) := by
  by_cases h : n = 0 <;> simp [Core.guardOk, Core.rp, Core.init, h]

/-- After reset d0 alone is not zero (R51). -/
theorem init_d_above {k : Nat} (h : 0 < k) : Core.init.d.get 0 k = 0 := by
  have hne : ¬ 0 = k := by omega
  simp [Core.init, SMap.get, hne]

/-- What a core's registers, accumulators and saturation counters read at their reset values (R51; at power-up log entry 3). -/
theorem init_reads : (∀ i, Core.init.g.get 0 i = 0) ∧ (∀ i, Core.init.v.get 0 i = 0) ∧ (∀ i, Core.init.acc.get 0 i = 0)
    ∧ (∀ i, Core.init.sat.get 0 i = 0) ∧ (∀ n, Core.init.guardOk ⟨n, false⟩ = decide (n = 0))
    ∧ Core.init.d.get 0 0 = 1#128 <<< 48 ∧ ∀ i, 0 < i → Core.init.d.get 0 i = 0 :=
  ⟨fun _ => rfl, fun _ => rfl, fun _ => rfl, fun _ => rfl, init_guardOk, rfl, fun _ => init_d_above⟩

/-- The fields of the memory settings at their reset values (R272). -/
theorem init_settings : Dram.init.settings.fld 1 0 = 0 ∧ Dram.init.settings.fld 5 2 = 9 ∧ Dram.init.settings.fld 7 6 = 0
    ∧ Dram.init.settings.fld 23 8 = 4096 := by decide

/-- Settles O5, from the reset values of State.lean: a sparse map that lists nothing reads its default everywhere, and every
core is `Core.init`. -/
theorem resetState : Obligations.ResetState := by
  have hlknot : ∀ c i, State.reset.dev.lknot c i = ⟨0, 0⟩ := fun _ _ => rfl
  have hgknot : ∀ i, (State.reset.dev.gknot i).count = 0 := fun _ => rfl
  have hten : ∀ i, State.reset.dev.alloc? i = none ∧ State.reset.dev.weave? i = none ∧ State.reset.dev.stream? i = none
      ∧ (State.reset.dev.seq i).phase = 0 := fun _ => ⟨rfl, rfl, rfl, rfl⟩
  exact ⟨by decide, rfl, rfl, rfl, rfl, rfl, fun _ => rfl, rfl, rfl, rfl, rfl, rfl, rfl, rfl, rfl, rfl, rfl, rfl,
    fun _ => init_reads, hlknot, hgknot, rfl, hten, rfl, init_settings⟩

/-! ### PORST_RELEASE (R445, R458) -/

/-- PORST_RELEASE with both fuse banks good. It clears the address tables of both I3C buses, as each cold start does (R445). -/
theorem porstRelease_goodBanks (sel : Bool) (hup : s.dev.aon.up = true) (hlow : s.dev.aon.porstLow = true) :
    exec (.porstRelease sel true true) s = .next { s with dev := { s.dev with
      aon := { s.dev.aon with porstLow := false, bootSel := sel, fuseBank := false, fusesLost := false, devResets := []
                              gpio0 := true, boot := .released, bootAt := s.now }
      hub := { s.dev.hub with oos := false }, i3c := [] } } := by
  simp [exec, execPorstRelease, State.act, hup, hlow, Device.leaveOff]

/-- A device that has started, with address 0x08 of bus 0 given to the target of identifier 77. -/
def startedWithTarget : State := ⟨[], 0, { Device.init with
  aon := { Device.init.aon with porstLow := false, boot := .done }
  i3c := [(0, { I3c.init with started := true, table := [(0x08, some 77)] })] }⟩

/-- PORST_ASSERT holds that device in reset, the always-on domain up, and leaves the bus table as it was: the cold start is
what clears it (R445). -/
theorem porstAssert_keeps_target : ∃ t, exec .porstAssert startedWithTarget = .next t
    ∧ t.dev.aon.up = true ∧ t.dev.aon.porstLow = true ∧ t.dev.i3c = startedWithTarget.dev.i3c :=
  ⟨_, rfl, by decide⟩

/-- Refutes O53: for PORST_RELEASE with both fuse banks good it says that nothing but the always-on domain and the
out-of-service mark changes. From the state that PORST_ASSERT leaves of `startedWithTarget`, PORST_RELEASE also clears the
I3C tables, as R445 asks of each cold start. -/
theorem not_bootResult : ¬ Obligations.BootResult := by
  intro h
  obtain ⟨s, -, hup, hlow, hbus⟩ := porstAssert_keeps_target
  obtain ⟨-, -, hrelease, -⟩ := h s
  have hclaim := ((hrelease true true true).2 hup hlow).1 rfl rfl
  rw [porstRelease_goodBanks true hup hlow] at hclaim
  injection hclaim with hstate
  have hi3c : [] = s.dev.i3c := congrArg (·.dev.i3c) hstate
  rw [hbus] at hi3c
  cases hi3c

end Sys2Proof.Machine
